-- ==== Sys2Proof/Word.lean ====
section
/-!
DEFINITION. The word types of the GR core: the 32-bit register word (10_state.md R21), the byte of
the two byte streams (20_memory.md R64, R65) and the 16-bit PCM sample (00_scope.md R9).
Every conversion between a word and an integer is in Machine/Operands.lean.
-/

namespace Sys2Proof

/-- A register, an operand, a result or a command word: 32 bits (10_state.md R21, 30_encoding.md R86). -/
abbrev Word := BitVec 32

/-- One byte of BYTE_OUT or BYTE_IN (20_memory.md R64, R65). -/
abbrev Byte := BitVec 8

/-- One PCM sample: 16 bits, two's complement (00_scope.md R9 `SAMPLE_BITS`, 20_memory.md R67). -/
abbrev Sample := BitVec 16

end Sys2Proof
end

