-- ==== Sys2Proof/Syntax.lean ====
section
/-!
DEFINITION. The 24 commands of the opcode map (30_encoding.md R84), one constructor per row of
spec/opcode_table.json, in the table's order.
-/

namespace Sys2Proof

/-- A command. `n` is the operand `N = v[13:8]` of the three rows that say "N used"
(30_encoding.md R83, R84); every other operand is read from a register. -/
inductive Instr where
  /-- NOP, OP 0x00 (45_control.md R280). -/
  | nop
  /-- SOFT_RESET, OP 0x01 (45_control.md R281). -/
  | softReset
  /-- BC_OPEN_WRITE, OP 0x10 (40_bitchannel.md R122). -/
  | bcOpenWrite
  /-- BC_OPEN_READ, OP 0x11 (40_bitchannel.md R123). -/
  | bcOpenRead
  /-- BC_WRITE_BITS, OP 0x12, N = bit count (40_bitchannel.md R130). -/
  | bcWriteBits (n : Nat)
  /-- BC_WRITE_BIT, OP 0x13 (40_bitchannel.md R131). -/
  | bcWriteBit
  /-- BC_READ_BITS, OP 0x14, N = bit count (40_bitchannel.md R132). -/
  | bcReadBits (n : Nat)
  /-- BC_READ_BIT, OP 0x15 (40_bitchannel.md R133). -/
  | bcReadBit
  /-- BC_CLOSE, OP 0x16 (40_bitchannel.md R129). -/
  | bcClose
  /-- GR_CONFIG, OP 0x20 (41_golomb.md R160). -/
  | grConfig
  /-- GR_ENC_U, OP 0x21 (41_golomb.md R161). -/
  | grEncU
  /-- GR_DEC_U, OP 0x22 (41_golomb.md R162). -/
  | grDecU
  /-- GR_ENC_S, OP 0x23 (41_golomb.md R163). -/
  | grEncS
  /-- GR_DEC_S, OP 0x24 (41_golomb.md R164). -/
  | grDecS
  /-- LP_PREDICT, OP 0x30, N = order (42_predictor_stereo.md R191). -/
  | lpPredict (n : Nat)
  /-- SD_TO_MS, OP 0x31 (42_predictor_stereo.md R194). -/
  | sdToMs
  /-- SD_TO_LR, OP 0x32 (42_predictor_stereo.md R195). -/
  | sdToLr
  /-- BLK_ESTIMATE, OP 0x40 (43_block_codec.md R220). -/
  | blkEstimate
  /-- BLK_ENCODE_NEXT, OP 0x41 (43_block_codec.md R219). -/
  | blkEncodeNext
  /-- BLK_DECODE_NEXT, OP 0x42 (43_block_codec.md R234). -/
  | blkDecodeNext
  /-- HDR_WRITE, OP 0x50 (44_container.md R252). -/
  | hdrWrite
  /-- HDR_READ, OP 0x51 (44_container.md R255). -/
  | hdrRead
  /-- ENCODE_FILE, OP 0x52 (44_container.md R256). -/
  | encodeFile
  /-- DECODE_FILE, OP 0x53 (44_container.md R257). -/
  | decodeFile
  deriving DecidableEq, Repr

end Sys2Proof
end

