-- ==== Sys2Proof/WellFormed.lean ====
section
/-!
DEFINITION. Which terms of `Instr` stand for a command word: `N` is a 6-bit field
(10_state.md R22: `N = CMD[13:8]`; 30_encoding.md R83: "an unsigned 6-bit value, 0 to 63").
A legal range narrower than that (a bit count up to 32, an order up to 3) is checked by the
command's own rule when it runs, not by its encoding.
-/

namespace Sys2Proof

/-- The value of the field `N = v[13:8]` of a command's word: its operand, or 0 where the row of
30_encoding.md R84 says "N unused" (R83). -/
def Instr.fieldN : Instr → Nat
  | .bcWriteBits n => n
  | .bcReadBits n => n
  | .lpPredict n => n
  | .nop => 0
  | .softReset => 0
  | .bcOpenWrite => 0
  | .bcOpenRead => 0
  | .bcWriteBit => 0
  | .bcReadBit => 0
  | .bcClose => 0
  | .grConfig => 0
  | .grEncU => 0
  | .grDecU => 0
  | .grEncS => 0
  | .grDecS => 0
  | .sdToMs => 0
  | .sdToLr => 0
  | .blkEstimate => 0
  | .blkEncodeNext => 0
  | .blkDecodeNext => 0
  | .hdrWrite => 0
  | .hdrRead => 0
  | .encodeFile => 0
  | .decodeFile => 0

/-- An instruction that some command word encodes: its `N` is below 64. -/
def Instr.wf (i : Instr) : Bool := i.fieldN < 64

end Sys2Proof
end

