-- ==== Sys2Proof/Decode.lean ====
section
/-!
DEFINITION. The command word (30_encoding.md Part A): fields, opcode map, decoder, encoder.
A command word is exactly 32 bits, written in one register write (R86), so the decoder's input is a
word and no byte order enters.
-/

namespace Sys2Proof

/-- Why a word is no command, by name (30_encoding.md R82, R83). -/
inductive DecodeError where
  /-- `OP` is not in the opcode map (R82, R85): ILLEGAL_COMMAND(UNDEFINED_OPCODE). -/
  | undefinedOpcode
  /-- `v[31:14]` is not zero, or `N` is not zero where the row says "N unused" (R83):
  ILLEGAL_COMMAND(RESERVED_BITS). -/
  | reservedBits
  deriving DecidableEq, Repr

/-- `OP = v[7:0]` (10_state.md R22). -/
def opField (v : Word) : Nat := v.toNat % 256

/-- `N = v[13:8]` (10_state.md R22). -/
def nField (v : Word) : Nat := v.toNat / 256 % 64

/-- `RSVD = v[31:14]` (10_state.md R22). -/
def rsvdField (v : Word) : Nat := v.toNat / 16384

/-- The opcode number of a command (30_encoding.md R84, column OP). -/
def opcodeOf : Instr → Nat
  | .nop => 0x00
  | .softReset => 0x01
  | .bcOpenWrite => 0x10
  | .bcOpenRead => 0x11
  | .bcWriteBits _ => 0x12
  | .bcWriteBit => 0x13
  | .bcReadBits _ => 0x14
  | .bcReadBit => 0x15
  | .bcClose => 0x16
  | .grConfig => 0x20
  | .grEncU => 0x21
  | .grDecU => 0x22
  | .grEncS => 0x23
  | .grDecS => 0x24
  | .lpPredict _ => 0x30
  | .sdToMs => 0x31
  | .sdToLr => 0x32
  | .blkEstimate => 0x40
  | .blkEncodeNext => 0x41
  | .blkDecodeNext => 0x42
  | .hdrWrite => 0x50
  | .hdrRead => 0x51
  | .encodeFile => 0x52
  | .decodeFile => 0x53

/-- Whether the row of a command says "N used" (30_encoding.md R84, column N). -/
def usesN : Instr → Bool
  | .bcWriteBits _ => true
  | .bcReadBits _ => true
  | .lpPredict _ => true
  | .nop => false
  | .softReset => false
  | .bcOpenWrite => false
  | .bcOpenRead => false
  | .bcWriteBit => false
  | .bcReadBit => false
  | .bcClose => false
  | .grConfig => false
  | .grEncU => false
  | .grDecU => false
  | .grEncS => false
  | .grDecS => false
  | .sdToMs => false
  | .sdToLr => false
  | .blkEstimate => false
  | .blkEncodeNext => false
  | .blkDecodeNext => false
  | .hdrWrite => false
  | .hdrRead => false
  | .encodeFile => false
  | .decodeFile => false

/-- The commands with `N` in place, in the order of the opcode map (30_encoding.md R84). -/
def commandsWith (n : Nat) : List Instr :=
  [.nop, .softReset, .bcOpenWrite, .bcOpenRead, .bcWriteBits n, .bcWriteBit, .bcReadBits n,
   .bcReadBit, .bcClose, .grConfig, .grEncU, .grDecU, .grEncS, .grDecS, .lpPredict n, .sdToMs,
   .sdToLr, .blkEstimate, .blkEncodeNext, .blkDecodeNext, .hdrWrite, .hdrRead, .encodeFile,
   .decodeFile]

/-- The command that an opcode selects, with its operand `N` (30_encoding.md R82, R84). -/
def commandOf (op n : Nat) : Option Instr :=
  (commandsWith n).find? (fun i => opcodeOf i == op)

/-- Decode a command word: opcode first (R82), then the reserved bits and an unused `N` (R83;
the order is that of 60_exceptions.md R308, steps 2 and 3). Total on every word. -/
def decode (v : Word) : Except DecodeError Instr :=
  match commandOf (opField v) (nField v) with
  | none => .error .undefinedOpcode
  | some i =>
    if rsvdField v ≠ 0 then .error .reservedBits
    else if usesN i = false ∧ nField v ≠ 0 then .error .reservedBits
    else .ok i

/-- The command word of an instruction: `OP` in bits 7:0, `N` in bits 13:8, zeros above
(30_encoding.md R84). -/
def encode (i : Instr) : Word := BitVec.ofNat 32 (opcodeOf i + 256 * i.fieldN)

/-- One row of the match and mask table (30_encoding.md R84, last paragraph). -/
structure OpcodeRow where
  matchBits : Word
  maskBits : Word
  deriving DecidableEq, Repr

/-- The match and mask of a command's row: mask `0xFFFFFFFF` when `N` is unused, `0xFFFFC0FF` when
it is used (30_encoding.md R84). -/
def rowOf (i : Instr) : OpcodeRow :=
  { matchBits := BitVec.ofNat 32 (opcodeOf i)
    maskBits := if usesN i then 0xFFFFC0FF#32 else 0xFFFFFFFF#32 }

/-- The 24 rows of the opcode table, in its order. -/
def opcodeTable : List OpcodeRow := (commandsWith 0).map rowOf

/-- The instruction that the decoder reads from a row's bits `w` as spec/opcode_table.json numbers
them; the bits from `nbits` up are zero. A command word is one 32-bit register value
(30_encoding.md R86), so there is no byte layout to undo. -/
def decodeTableWord (nbits w : Nat) : Option Instr :=
  match decode (BitVec.ofNat 32 (w % 2 ^ nbits)) with
  | .ok i => some i
  | .error _ => none

end Sys2Proof
end

