-- ==== Sys2Proof/Config.lean ====
section
/-!
DEFINITION. What is fixed for the machine: the parameters of 00_scope.md R9 that a rule uses as a
number, and the free values. A free value is an `opaque` constant without a body: nothing in Lean
can say what it is, so a statement about the machine holds whatever it is.
-/

namespace Sys2Proof.Config

/-- `MAX_BIT_COUNT`: the widest single bit transfer (00_scope.md R9, 40_bitchannel.md R125). -/
def maxBitCount : Nat := 32

/-- `MAX_ORDER`: the highest predictor order (00_scope.md R9). -/
def maxOrder : Nat := 3

/-- The largest unsigned code value, 2^32 - 1 (00_scope.md R9 `CODE_VALUE_BITS`, 41_golomb.md R151). -/
def maxCodeValue : Nat := 4294967295

/-- `EST_M_MAX`: the largest estimated divisor (00_scope.md R9, 43_block_codec.md R215). -/
def estMMax : Nat := 1000

/-- The bound of a side sample's absolute value (42_predictor_stereo.md R197, 43_block_codec.md R232). -/
def sideBound : Int := 65535

/-- The answer of the `k`-th IO draw for which the host has committed to no answer
(20_memory.md R70: "No rule constrains the draw"). Free value, log 2. -/
opaque ioDraw : Nat → Bool

/-- What the `k`-th draw gives a host register read while BUSY = 1 (20_memory.md R75: "an
unspecified value, a draw under no law"). Free value, log 3. -/
opaque busyWord : Nat → Word

/-- What the `k`-th draw gives a host that looks at BYTE_OUT while BUSY = 1 (20_memory.md R75).
Free value, log 3. -/
opaque busyBytes : Nat → List Byte

/-- What the `k`-th draw gives a host that looks at PCM_OUT while BUSY = 1 (20_memory.md R75).
Free value, log 3. -/
opaque busySamples : Nat → List Sample

/-- What `PCM_IN[k]` is for `k` past the end of PCM_IN. No run reads one: HDR_WRITE checks the
length (44_container.md R250) and PCM_IN is stable (70_reset_and_hazards.md R353). Free value, log 8. -/
opaque absentSample : Nat → Sample

end Sys2Proof.Config
end

