-- ==== Sys2Proof/Machine/State.lean ====
section
/-!
DEFINITION. The state of the GR core as plain data: the record of 10_state.md R50, with the host's
side of the interface (its turns, its IO answers, what it last read) beside it as the model's own
fields. `State.reset` is the machine right after hardware reset (70_reset_and_hazards.md R340, R342).
-/

namespace Sys2Proof.Machine

/-- The BitChannel mode, STATUS.BCMODE (10_state.md R28). -/
inductive BcMode where
  | idle | write | read | closed
  deriving DecidableEq, Repr

/-- The codec phase, STATUS.PHASE (10_state.md R33). -/
inductive Phase where
  | idle | encBlocks | encEnd | decBlocks | decEnd
  deriving DecidableEq, Repr

/-- NegativeHandling: 0 is ZigZag, 1 is SignMagnitude (10_state.md R35, R42). -/
inductive Scheme where
  | zigZag | signMagnitude
  deriving DecidableEq, Repr

/-- The twenty (class, detail) pairs a `raise` can name (60_exceptions.md R306). "A (class, detail)
pair not in the table never occurs": the type has no other value. -/
inductive Raise where
  /-- CONFIGURATION(BAD_M). -/
  | badM
  /-- CONFIGURATION(BAD_ORDER). -/
  | badOrder
  /-- CONFIGURATION(BAD_CHANNELS). -/
  | badChannels
  /-- CONFIGURATION(BAD_BLOCK_SIZE). -/
  | badBlockSize
  /-- CONFIGURATION(BAD_NEG). -/
  | badNeg
  /-- CONFIGURATION(PCM_LENGTH). -/
  | pcmLength
  /-- END_OF_STREAM(NONE). -/
  | endOfStream
  /-- CORRUPT_STREAM(UNEXPECTED_EOS). -/
  | unexpectedEos
  /-- CORRUPT_STREAM(BAD_PARAM). -/
  | badParam
  /-- CORRUPT_STREAM(CODE_OVERFLOW). -/
  | codeOverflow
  /-- CORRUPT_STREAM(VALUE_RANGE). -/
  | valueRange
  /-- CORRUPT_STREAM(SAMPLE_RANGE). -/
  | sampleRange
  /-- CORRUPT_STREAM(BAD_HEADER). -/
  | badHeader
  /-- IO(OPEN_FAILED). -/
  | openFailed
  /-- IO(CLOSE_FAILED). -/
  | closeFailed
  /-- ILLEGAL_COMMAND(UNDEFINED_OPCODE). -/
  | undefinedOpcode
  /-- ILLEGAL_COMMAND(RESERVED_BITS). -/
  | reservedBits
  /-- ILLEGAL_COMMAND(BAD_BIT_COUNT). -/
  | badBitCount
  /-- ILLEGAL_COMMAND(WRONG_BC_MODE). -/
  | wrongBcMode
  /-- ILLEGAL_COMMAND(WRONG_PHASE). -/
  | wrongPhase
  deriving DecidableEq, Repr

/-- The eight stream-header fields at their widths (10_state.md R50 `Header`; R36 to R44). The
configuration registers CFG and the header latch HDR are one each. -/
structure Header where
  sampleRate : BitVec 32
  totalFrames : BitVec 32
  blockSize : BitVec 16
  channels : BitVec 8
  order : BitVec 8
  neg : BitVec 8
  dynamic : BitVec 1
  staticM : BitVec 32
  deriving DecidableEq, Repr

/-- The BitChannel and the two byte streams it moves (10_state.md R28, R32, R45; 20_memory.md R64
to R66). -/
structure BitChannel where
  /-- STATUS.BCMODE (R28). -/
  mode : BcMode
  /-- The pending partial byte (R45). -/
  wpend : Byte
  /-- Bits already in `wpend` (R45). -/
  wpos : Fin 8
  /-- Bits consumed from BYTE_IN since BC_OPEN_READ (R45). -/
  rdpos : Nat
  /-- BC_BYTE_COUNT (R32). -/
  count : Word
  /-- BYTE_OUT, oldest byte first (20_memory.md R64). -/
  byteOut : List Byte
  /-- `durable` (20_memory.md R66). -/
  durable : Bool
  /-- BYTE_IN (20_memory.md R65). -/
  byteIn : List Byte
  deriving DecidableEq, Repr

/-- What the host can do between two turns of the core (10_state.md R20; 20_memory.md R61 to R68;
70_reset_and_hazards.md R340). Sizes and offsets are any numbers: an access that has no meaning
stops (20_memory.md R62). -/
inductive HostEvent where
  /-- `MemWrite(off, size, v)` (20_memory.md R63). -/
  | write (off size : Nat) (v : Word)
  /-- `MemRead(off, size)` (20_memory.md R61). -/
  | read (off size : Nat)
  /-- The host looks at BYTE_OUT (20_memory.md R64). -/
  | takeBytes
  /-- The host looks at PCM_OUT (20_memory.md R68). -/
  | takeSamples
  /-- The host supplies BYTE_IN (20_memory.md R65). -/
  | supplyBytes (bs : List Byte)
  /-- The host supplies PCM_IN (20_memory.md R67). -/
  | supplySamples (xs : List Sample)
  /-- Hardware reset (70_reset_and_hazards.md R340). -/
  | hardReset
  deriving DecidableEq, Repr

/-- Which of the two agents moves (10_state.md R20). -/
inductive Turn where
  | core
  | host (e : HostEvent)
  deriving DecidableEq, Repr

/-- What the host's latest looks at the core returned: the model's own record of them. -/
structure HostSeen where
  word : Word
  bytes : List Byte
  samples : List Sample
  deriving DecidableEq, Repr

/-- The complete state (10_state.md R50). BUSY is `cur.isSome` (R48) and ERR, ERRCODE and DETAIL are
read from `error`, so each fact has one home. -/
structure State where
  /-- The in-flight command (R48); BUSY = 1 exactly when it is there (R23). -/
  cur : Option Word
  /-- STATUS.DONE (R24). -/
  done : Bool
  /-- The recorded error: STATUS.ERR, ERRCODE and DETAIL (R25 to R27). -/
  error : Option Raise
  /-- STATUS.PHASE (R33). -/
  phase : Phase
  /-- ARG0 (R29). -/
  arg0 : Word
  /-- ARG1 (R29). -/
  arg1 : Word
  /-- ARG2 (R29). -/
  arg2 : Word
  /-- RES0 (R30). -/
  res0 : Word
  /-- RES1 (R30). -/
  res1 : Word
  /-- FRAMES_DONE, below 2^32 (R34, R50). -/
  framesDone : Nat
  /-- GR_M (R35). -/
  grM : Word
  /-- GR_NEG (R35). -/
  grNeg : Scheme
  /-- The configuration registers (R36 to R44). -/
  cfg : Header
  /-- The header latch HDR (R46). -/
  hdr : Header
  /-- HDR.valid (R46). -/
  hdrValid : Bool
  /-- The BitChannel and the byte streams (R28, R32, R45, 20_memory.md R64 to R66). -/
  bc : BitChannel
  /-- `hist[0]`, mid or mono (R47). -/
  hist0 : List Int
  /-- `hist[1]`, side (R47). -/
  hist1 : List Int
  /-- PCM_IN (20_memory.md R67). -/
  pcmIn : List Sample
  /-- PCM_OUT (20_memory.md R68). -/
  pcmOut : List Sample
  /-- The model's own: the turns to come, next first (log 1). -/
  sched : List Turn
  /-- The model's own: the IO answers the host has committed to, next first (log 2). -/
  ioAnswers : List Bool
  /-- The model's own: how many draws have been taken (log 2, log 3). -/
  draws : Nat
  /-- The model's own: what the host's latest looks returned (log 3). -/
  seen : HostSeen
  deriving DecidableEq, Repr

/-- Why the machine stops with a fault. No command raises one: every error of a command is an error
entry (60_exceptions.md R313), a next state. -/
inductive Fault where
  /-- Raised by a host register access whose size is not 4, whose offset is not a multiple of 4, or
  whose offset is outside 0x00 to 0x4F (20_memory.md R62: it "has no meaning"). Safe: the hardware
  does something the spec does not say, the model stops. Log 4. -/
  | noSuchRegister
  deriving DecidableEq, Repr

/-- Why a step has no meaning. No command raises one. -/
inductive Refusal where
  /-- An instruction that has no meaning yet; no arm of `exec` answers it now. Safe. -/
  | notModelled (mnemonic : String)
  /-- Raised by a host register write while BUSY = 1 (20_memory.md R63: "has no meaning, and the
  model refuses it"; 70_reset_and_hazards.md R350). Safe. Log 5. -/
  | hostWriteWhileBusy
  /-- Raised by a host that changes BYTE_IN or PCM_IN inside its stability window, or while BUSY = 1
  (70_reset_and_hazards.md R353: "The model has no host step that changes them in those windows";
  20_memory.md R77). Safe. Log 5. -/
  | inputMustBeStable
  deriving DecidableEq, Repr

/-- Every header field 0 (70_reset_and_hazards.md R342). -/
def Header.reset : Header where
  sampleRate := 0
  totalFrames := 0
  blockSize := 0
  channels := 0
  order := 0
  neg := 0
  dynamic := 0
  staticM := 0

/-- The BitChannel after hardware reset (70_reset_and_hazards.md R340, R342). BYTE_IN is a host input
that reset does not define; it is empty here (DESIGN CHOICE, log 7). -/
def BitChannel.reset : BitChannel where
  mode := .idle
  wpend := 0
  wpos := 0
  rdpos := 0
  count := 0
  byteOut := []
  durable := false
  byteIn := []

/-- The machine right after hardware reset (70_reset_and_hazards.md R340, R342). PCM_IN, BYTE_IN and
the model's own fields have no reset value in the spec (DESIGN CHOICE empty or zero, log 7). -/
def State.reset : State where
  cur := none
  done := false
  error := none
  phase := .idle
  arg0 := 0
  arg1 := 0
  arg2 := 0
  res0 := 0
  res1 := 0
  framesDone := 0
  grM := 0
  grNeg := .zigZag
  cfg := Header.reset
  hdr := Header.reset
  hdrValid := false
  bc := BitChannel.reset
  hist0 := []
  hist1 := []
  pcmIn := []
  pcmOut := []
  sched := []
  ioAnswers := []
  draws := 0
  seen := { word := 0, bytes := [], samples := [] }

end Sys2Proof.Machine
end

