-- ==== Sys2Proof/Machine/Operands.lean ====
section
/-!
DEFINITION. Width conversions (00_scope.md R12) and the operand forms of every command
(30_encoding.md R87).
-/

namespace Sys2Proof.Machine

/-- `u32(x) = x mod 2^32`, the register pattern of an integer (00_scope.md R12). -/
def u32 (x : Int) : Word := BitVec.ofInt 32 x

/-- `int32(p)`: a register read as two's complement (00_scope.md R12). -/
def int32 (p : Word) : Int := p.toInt

/-- `sext_16(p[15:0])` (00_scope.md R12, 30_encoding.md R87). -/
def sext16 (p : Word) : Int := (p.setWidth 16).toInt

/-- `x ∈ INT32` (00_scope.md R12). -/
abbrev InInt32 (x : Int) : Prop := -2147483648 ≤ x ∧ x ≤ 2147483647

/-- `x ∈ INT16` (00_scope.md R12). -/
abbrev InInt16 (x : Int) : Prop := -32768 ≤ x ∧ x ≤ 32767

/-- A PCM sample as an integer (20_memory.md R67, R72). -/
def sampleInt (x : Sample) : Int := x.toInt

/-- An integer of INT16 as a PCM sample (20_memory.md R68). -/
def sampleOf (x : Int) : Sample := BitVec.ofInt 16 x

/-- BC_WRITE_BITS value: `ARG0`, of which the command writes `ARG0[N-1:0]` (30_encoding.md R87). -/
def State.writeValue (s : State) : Nat := s.arg0.toNat

/-- BC_WRITE_BIT bit: `ARG0[0]` (30_encoding.md R87). -/
def State.writeBitValue (s : State) : Bool := s.arg0.getLsbD 0

/-- GR_CONFIG divisor: `int32(ARG0)` (30_encoding.md R87). -/
def State.configM (s : State) : Int := int32 s.arg0

/-- GR_CONFIG scheme: `ARG1` unsigned (30_encoding.md R87). -/
def State.configScheme (s : State) : Nat := s.arg1.toNat

/-- GR_ENC_U value: `ARG0` unsigned (30_encoding.md R87). -/
def State.encodeU (s : State) : Nat := s.arg0.toNat

/-- GR_ENC_S value: `int32(ARG0)` (30_encoding.md R87). -/
def State.encodeS (s : State) : Int := int32 s.arg0

/-- LP_PREDICT `s[i-1]`: `int32(ARG0)` (30_encoding.md R87). -/
def State.history1 (s : State) : Int := int32 s.arg0

/-- LP_PREDICT `s[i-2]`: `int32(ARG1)` (30_encoding.md R87). -/
def State.history2 (s : State) : Int := int32 s.arg1

/-- LP_PREDICT `s[i-3]`: `int32(ARG2)` (30_encoding.md R87). -/
def State.history3 (s : State) : Int := int32 s.arg2

/-- SD_TO_MS left sample: `sext_16(ARG0[15:0])` (30_encoding.md R87). -/
def State.left (s : State) : Int := sext16 s.arg0

/-- SD_TO_MS right sample: `sext_16(ARG1[15:0])` (30_encoding.md R87). -/
def State.right (s : State) : Int := sext16 s.arg1

/-- SD_TO_LR mid: `int32(ARG0)` (30_encoding.md R87). -/
def State.mid (s : State) : Int := int32 s.arg0

/-- SD_TO_LR side: `int32(ARG1)` (30_encoding.md R87). -/
def State.side (s : State) : Int := int32 s.arg1

/-- BLK_ESTIMATE sum: `S = ARG1·2^32 + ARG0`, 64-bit unsigned (30_encoding.md R87). -/
def State.estimateSum (s : State) : Nat := s.arg1.toNat * 4294967296 + s.arg0.toNat

/-- BLK_ESTIMATE count: `C = ARG2` unsigned (30_encoding.md R87). -/
def State.estimateCount (s : State) : Nat := s.arg2.toNat

/-- The divisor of the standalone coder, `int32(GR_M)` (41_golomb.md R161 to R164). The commands that
use it have checked that it is at least 1 (R156), so it is GR_M itself as a natural number. -/
def State.coderM (s : State) : Nat := s.grM.toNat

/-- A header's NegativeHandling field as a scheme: 0 is ZigZag, 1 is SignMagnitude (10_state.md R42).
A header in use has passed the check `neg ≤ 1` (44_container.md R250, R254); log 9. -/
def Header.scheme (h : Header) : Scheme := if h.neg = 0 then .zigZag else .signMagnitude

/-- Whether a header has two channels. A header in use has one or two (44_container.md R250, R254);
log 9. -/
def Header.stereo (h : Header) : Bool := h.channels == 2

/-- The number of channels of a header in use, `C` of 43_block_codec.md. -/
def Header.channelCount (h : Header) : Nat := if h.stereo then 2 else 1

/-- `sm = int32(HDR.staticM)` of a static header in use, which is at least 1 (44_container.md R250,
R254), as a natural number. -/
def Header.staticDivisor (h : Header) : Nat := h.staticM.toNat

end Sys2Proof.Machine
end

