-- ==== Sys2Proof/Machine/Ops.lean ====
section
/-!
DEFINITION. The shared operations: how a command ends (success, error entry, reset), the guards, the
IO draw, and the BitChannel primitives (40_bitchannel.md R121, R124 to R128).

A command body is an `EStateM` computation: `raise` ends it at once and keeps every write made before
it (00_scope.md R18, 60_exceptions.md R315).
-/

namespace Sys2Proof.Machine

/-- A computation over the whole state that may raise. -/
abbrev Cmd (α : Type) := EStateM Raise State α

/-- A computation over the BitChannel alone that may raise: reading can change nothing else. -/
abbrev Reader (α : Type) := EStateM Raise BitChannel α

/-! ### How a command begins and ends -/

/-- Issue a command word: `cur <- v; busy <- 1; done <- 0` (30_encoding.md R80). -/
def State.issue (v : Word) (s : State) : State := { s with cur := some v, done := false }

/-- Success: `cur <- empty; busy <- 0; done <- 1` (30_encoding.md R81). -/
def State.succeed (s : State) : State := { s with cur := none, done := true }

/-- Error entry: `cur <- empty; busy <- 0; done <- 0; err <- 1; errcode <- E; detail <- d`. Nothing
else is saved and control goes nowhere (60_exceptions.md R313). -/
def State.raiseError (e : Raise) (s : State) : State :=
  { s with cur := none, done := false, error := some e }

/-- Every state element of 70_reset_and_hazards.md R342 at its reset value, except the host streams
(BYTE_OUT, `durable`, BYTE_IN, PCM_IN, PCM_OUT), which R341 keeps. The host's own side is kept. -/
def State.coreReset (s : State) : State :=
  { State.reset with
    bc := { BitChannel.reset with
      byteOut := s.bc.byteOut, durable := s.bc.durable, byteIn := s.bc.byteIn }
    pcmIn := s.pcmIn
    pcmOut := s.pcmOut
    sched := s.sched
    ioAnswers := s.ioAnswers
    draws := s.draws
    seen := s.seen }

/-- Hardware reset: as above, and BYTE_OUT and PCM_OUT empty and `durable` 0; BYTE_IN and PCM_IN are
host inputs and stay (70_reset_and_hazards.md R340; log 6). A command in flight ends uncompleted. -/
def State.hardReset (s : State) : State :=
  { s.coreReset with
    bc := { s.coreReset.bc with byteOut := [], durable := false }
    pcmOut := [] }

/-- How a body's result becomes the state after the command (30_encoding.md R81). -/
def settle : EStateM.Result Raise State Unit → State
  | .ok _ s => s.succeed
  | .error e s => s.raiseError e

/-- One command: run its body and end it. Every command ends in a next state, whether it succeeds or
raises (30_encoding.md R81: "The step always terminates"). -/
def execute (body : Cmd Unit) (s : State) : Host.Outcome State Fault Refusal :=
  .next (settle (body s))

/-- The error a word that is no command raises (30_encoding.md R82, R83). -/
def rejection : DecodeError → Raise
  | .undefinedOpcode => .undefinedOpcode
  | .reservedBits => .reservedBits

/-- A word that is no command: error entry with the decoder's reason (30_encoding.md R82, R83). -/
def rejectWord (d : DecodeError) (s : State) : Host.Outcome State Fault Refusal :=
  .next (s.raiseError (rejection d))

/-! ### Raising and guards -/

/-- `if c: raise e` (00_scope.md R18). -/
def raiseIf {σ : Type} (c : Prop) [Decidable c] (e : Raise) : EStateM Raise σ Unit :=
  fun s => if c then .error e s else .ok () s

/-- The phase guard: WRONG_PHASE unless the phase is one of `allowed` (40_bitchannel.md R120,
44_container.md R258). -/
def needPhase (allowed : List Phase) : Cmd Unit :=
  fun s => if s.phase ∈ allowed then .ok () s else .error .wrongPhase s

/-- The BitChannel mode guard: WRONG_BC_MODE unless the mode is one of `allowed`
(60_exceptions.md R305, R308 step 6). -/
def needMode (allowed : List BcMode) : Cmd Unit :=
  fun s => if s.bc.mode ∈ allowed then .ok () s else .error .wrongBcMode s

/-- Apply a change that cannot raise. -/
def change (f : State → State) : Cmd Unit := fun s => .ok () (f s)

/-- Run a reader on the state's BitChannel. -/
def onChannel {α : Type} (r : Reader α) : Cmd α := fun s =>
  match r s.bc with
  | .ok a b => .ok a { s with bc := b }
  | .error e b => .error e { s with bc := b }

/-- Inside a header or a block END_OF_STREAM becomes CORRUPT_STREAM(UNEXPECTED_EOS), with the state
the failing read left (60_exceptions.md R309). -/
def structural {α : Type} (r : Reader α) : Reader α := fun b =>
  match r b with
  | .ok a b' => .ok a b'
  | .error e b' => .error (if e = .endOfStream then .unexpectedEos else e) b'

/-! ### The IO draw -/

/-- The next IO answer: the host's, or the free value when the host has committed to none
(20_memory.md R70; log 2). -/
def State.ioOk (s : State) : Bool :=
  match s.ioAnswers with
  | a :: _ => a
  | [] => Config.ioDraw s.draws

/-- The state after the draw has been taken. -/
def State.afterDraw (s : State) : State :=
  { s with ioAnswers := s.ioAnswers.tail, draws := s.draws + 1 }

/-- Take one IO draw (20_memory.md R70). -/
def drawIo : Cmd Bool := fun s => .ok s.ioOk s.afterDraw

/-! ### The writer -/

/-- `EmitByte(x)` and the byte count that goes with it (00_scope.md R19, 40_bitchannel.md R124). -/
def BitChannel.emitByte (x : Byte) (b : BitChannel) : BitChannel :=
  { b with byteOut := b.byteOut ++ [x], count := b.count + 1 }

/-- `wpend OR (bit << (7 - wpos))` (40_bitchannel.md R124). -/
def BitChannel.pendWith (bit : Bool) (b : BitChannel) : Byte :=
  b.wpend ||| BitVec.ofNat 8 (bit.toNat * 2 ^ (7 - b.wpos.val))

/-- `WriteBit(b)` (40_bitchannel.md R124). -/
def BitChannel.writeBit (bit : Bool) (b : BitChannel) : BitChannel :=
  if b.wpos = 7 then { b.emitByte (b.pendWith bit) with wpend := 0, wpos := 0 }
  else { b with wpend := b.pendWith bit, wpos := b.wpos + 1 }

/-- `WriteBits(v, n)`: bits `n - 1` down to 0 of `v` (40_bitchannel.md R125). -/
def BitChannel.writeBits (v : Nat) : Nat → BitChannel → BitChannel
  | 0, b => b
  | n + 1, b => BitChannel.writeBits v n (b.writeBit (v.testBit n))

/-- `WriteBit(1)` repeated (41_golomb.md R150). -/
def BitChannel.writeOnes : Nat → BitChannel → BitChannel
  | 0, b => b
  | q + 1, b => BitChannel.writeOnes q (b.writeBit true)

/-- Write a bit string, first bit first (00_scope.md R11). -/
def BitChannel.putBits (bits : List Bool) (b : BitChannel) : BitChannel :=
  bits.foldl (fun c bit => c.writeBit bit) b

/-- `Flush()` (40_bitchannel.md R128). -/
def BitChannel.flush (b : BitChannel) : BitChannel :=
  if b.wpos = 0 then b else { b.emitByte b.wpend with wpend := 0, wpos := 0 }

/-! ### The reader -/

/-- `remaining = 8·len(BYTE_IN) - rdpos` (40_bitchannel.md R121). -/
def BitChannel.remaining (b : BitChannel) : Nat := 8 * b.byteIn.length - b.rdpos

/-- Bit `i` of BYTE_IN: `SRC_BYTE(i div 8)[7 - (i mod 8)]` (40_bitchannel.md R127, 20_memory.md R69).
It is asked for below `8·len(BYTE_IN)` only. -/
def BitChannel.sourceBit (b : BitChannel) (i : Nat) : Bool :=
  (b.byteIn.getD (i / 8) 0).getLsbD (7 - i % 8)

/-- The value of the `n` bits of BYTE_IN from bit `i` on, first bit most significant
(40_bitchannel.md R127). -/
def BitChannel.sourceBits (b : BitChannel) (i : Nat) : Nat → Nat
  | 0 => 0
  | n + 1 => 2 * b.sourceBits i n + (b.sourceBit (i + n)).toNat

/-- `rdpos <- rdpos + n; bcCount <- u32(rdpos div 8)` (40_bitchannel.md R127). -/
def BitChannel.advance (n : Nat) (b : BitChannel) : BitChannel :=
  { b with rdpos := b.rdpos + n, count := BitVec.ofNat 32 ((b.rdpos + n) / 8) }

/-- `ReadBits(n)`: END_OF_STREAM with nothing consumed when fewer than `n` bits remain
(40_bitchannel.md R127). -/
def readBits (n : Nat) : Reader Nat := fun b =>
  if b.remaining < n then .error .endOfStream b
  else .ok (b.sourceBits b.rdpos n) (b.advance n)

/-- `ReadBit()` is `ReadBits(1)` (40_bitchannel.md R126). -/
def readBit : Reader Bool := do
  let v ← readBits 1
  return v == 1

end Sys2Proof.Machine
end

