-- ==== Sys2Proof/Machine/BitChannel.lean ====
section
/-!
DEFINITION. The seven BitChannel commands (40_bitchannel.md R122, R123, R129 to R133).
-/

namespace Sys2Proof.Machine

/-- The open step of BC_OPEN_WRITE, after its guards: the IO draw, then a new writer
(40_bitchannel.md R122). ENCODE_FILE performs it too (44_container.md R256). -/
def openWriteBody : Cmd Unit := do
  let ok ← drawIo
  raiseIf (ok = false) .openFailed
  change fun s => { s with bc := { s.bc with
    byteOut := [], durable := false, wpend := 0, wpos := 0, count := 0, mode := .write } }

/-- The open step of BC_OPEN_READ, after its guards: the IO draw, then a new reader
(40_bitchannel.md R123). DECODE_FILE performs it too (44_container.md R257). -/
def openReadBody : Cmd Unit := do
  let ok ← drawIo
  raiseIf (ok = false) .openFailed
  change fun s => { s with bc := { s.bc with rdpos := 0, count := 0, mode := .read } }

/-- The writer's part of a close: flush, the durability draw, `durable <- 1`
(40_bitchannel.md R129). -/
def closeWriter : Cmd Unit := do
  change fun s => { s with bc := s.bc.flush }
  let ok ← drawIo
  raiseIf (ok = false) .closeFailed
  change fun s => { s with bc := { s.bc with durable := true } }

/-- `if bcmode = WRITE: ...`: a reader's close takes no draw (40_bitchannel.md R129). -/
def closeSink : Cmd Unit := do
  let s ← get
  if s.bc.mode = .write then closeWriter else pure ()

/-- BC_CLOSE whole, with its guards (40_bitchannel.md R129). ENCODE_FILE and DECODE_FILE end with it
(44_container.md R256, R257). -/
def closeBody : Cmd Unit := do
  needPhase [.idle, .encEnd, .decEnd]
  needMode [.write, .read]
  closeSink
  change fun s => { s with bc := { s.bc with mode := .closed }, phase := .idle }

/-- BC_OPEN_WRITE (40_bitchannel.md R122). -/
def execBcOpenWrite (s : State) : Host.Outcome State Fault Refusal :=
  execute (do
    needPhase [.idle]
    needMode [.idle, .closed]
    openWriteBody) s

/-- BC_OPEN_READ (40_bitchannel.md R123). -/
def execBcOpenRead (s : State) : Host.Outcome State Fault Refusal :=
  execute (do
    needPhase [.idle]
    needMode [.idle, .closed]
    openReadBody) s

/-- BC_WRITE_BITS (40_bitchannel.md R130). -/
def execBcWriteBits (n : Nat) (s : State) : Host.Outcome State Fault Refusal :=
  execute (do
    raiseIf (n > Config.maxBitCount) .badBitCount
    needPhase [.idle]
    needMode [.write]
    change fun s => { s with bc := s.bc.writeBits s.writeValue n }) s

/-- BC_WRITE_BIT (40_bitchannel.md R131). -/
def execBcWriteBit (s : State) : Host.Outcome State Fault Refusal :=
  execute (do
    needPhase [.idle]
    needMode [.write]
    change fun s => { s with bc := s.bc.writeBit s.writeBitValue }) s

/-- BC_READ_BITS (40_bitchannel.md R132). RES0 is written on success only (10_state.md R30). -/
def execBcReadBits (n : Nat) (s : State) : Host.Outcome State Fault Refusal :=
  execute (do
    raiseIf (n > Config.maxBitCount) .badBitCount
    needPhase [.idle]
    needMode [.read]
    let v ← onChannel (readBits n)
    change fun s => { s with res0 := u32 v }) s

/-- BC_READ_BIT (40_bitchannel.md R133). -/
def execBcReadBit (s : State) : Host.Outcome State Fault Refusal :=
  execute (do
    needPhase [.idle]
    needMode [.read]
    let t ← onChannel readBit
    change fun s => { s with res0 := u32 (t.toNat : Int) }) s

/-- BC_CLOSE (40_bitchannel.md R129). -/
def execBcClose (s : State) : Host.Outcome State Fault Refusal := execute closeBody s

end Sys2Proof.Machine
end

