-- ==== Sys2Proof/Machine/Estimator.lean ====
section
/-!
DEFINITION. The parameter estimator (43_block_codec.md R214 to R216), in the integer form that R214
states: `min(1000, least k ≥ 1 with e ≤ ((S + C)/S)^k)`, with the comparison of `e` and a rational
decided exactly (93_implementation_defined.md I5; log 12).
-/

namespace Sys2Proof.Machine

/-- Decides `e ≤ p/q` from `S_n = sum/fact`, the sum of `1/i!` for `i ≤ n` with `fact = n!`.
`S_n < e < S_n + 1/(n·n!)` settles it as soon as `p/q` is outside that gap. With `fuel` steps left and
none settled for every `n` up to `q`, `q!·S_q < q!·p/q` are integers less than `q!·e - q!·S_q < 1` and
more apart, so `e < p/q`. -/
def expLeFrom (p q : Nat) : Nat → Nat → Nat → Nat → Bool
  | 0, _, _, _ => true
  | fuel + 1, n, sum, fact =>
    if p * fact ≤ q * sum then false
    else if q * (n * sum + 1) ≤ p * (n * fact) then true
    else expLeFrom p q fuel (n + 1) ((n + 1) * sum + 1) ((n + 1) * fact)

/-- `e ≤ p/q`, for `q ≥ 1`: the comparison starts at `S_1 = 2/1` (93_implementation_defined.md I5). -/
def expLe (p q : Nat) : Bool := expLeFrom p q q 1 2 1

/-- The least `k' ≥ k` with `e ≤ ((S + C)/S)^k'`, or the cap when `fuel` candidates fail; `p/q` is
`((S + C)/S)^k` (43_block_codec.md R214). -/
def leastDivisor (S C : Nat) : Nat → Nat → Nat → Nat → Nat
  | 0, k, _, _ => k
  | fuel + 1, k, p, q =>
    if expLe p q then k else leastDivisor S C fuel (k + 1) (p * (S + C)) (q * S)

/-- `Estimate(S, C)` (43_block_codec.md R214): 1 when `C = 0` or `S = 0`, else the least `k` of 1 to
999 that passes, else 1000 = `EST_M_MAX`. -/
def estimate (S C : Nat) : Nat :=
  if C = 0 ∨ S = 0 then 1 else leastDivisor S C (Config.estMMax - 1) 1 (S + C) S

end Sys2Proof.Machine
end

