-- ==== Sys2Proof/Machine/Golomb.lean ====
section
/-!
DEFINITION. The GolombRiceCoder: the code words (30_encoding.md R95 to R100), the four primitives
(41_golomb.md R150 to R153) and the five commands (R156, R160 to R164).
-/

namespace Sys2Proof.Machine

/-! ### Code parameters and code words -/

/-- The least `b'` with `b ≤ b' ≤ b + fuel` and `2^b' ≥ m`, searched upwards. -/
def codeBitsFrom (m : Nat) : Nat → Nat → Nat
  | 0, b => b
  | fuel + 1, b => if m ≤ 2 ^ b then b else codeBitsFrom m fuel (b + 1)

/-- `b(m)`: the least `b ≥ 0` with `2^b ≥ m` (30_encoding.md R95). `2^m ≥ m`, so the search up to `m`
finds it. -/
def codeBits (m : Nat) : Nat := codeBitsFrom m m 0

/-- `cutoff(m) = 2^b - m` (30_encoding.md R95). -/
def cutoff (m : Nat) : Nat := 2 ^ codeBits m - m

/-- `bin_n(v)`: the `n`-bit string of `v`, most significant bit first (00_scope.md R11). -/
def binBits (v : Nat) : Nat → List Bool
  | 0 => []
  | n + 1 => v.testBit n :: binBits v n

/-- `rem(m, r)` (30_encoding.md R96). -/
def remBits (m r : Nat) : List Bool :=
  if codeBits m = 0 then []
  else if r < cutoff m then binBits r (codeBits m - 1)
  else binBits (r + cutoff m) (codeBits m)

/-- `ucode(m, u) = 1^q ++ "0" ++ rem(m, r)` (30_encoding.md R96). -/
def ucode (m u : Nat) : List Bool :=
  List.replicate (u / m) true ++ false :: remBits m (u % m)

/-- `zz(n)` (30_encoding.md R98). -/
def zz (n : Int) : Nat := if 0 ≤ n then (2 * n).toNat else (-2 * n - 1).toNat

/-- `unzz(u)` (30_encoding.md R98). -/
def unzz (u : Nat) : Int := if u % 2 = 0 then (u / 2 : Nat) else -((u + 1) / 2 : Nat)

/-- `scode(m, neg, n)` (30_encoding.md R99, R100). -/
def scode (m : Nat) (scheme : Scheme) (n : Int) : List Bool :=
  match scheme with
  | .zigZag => ucode m (zz n)
  | .signMagnitude => if n = 0 then ucode m 0 else ucode m n.natAbs ++ [decide (n < 0)]

/-! ### Encoding -/

/-- `EncodeUnsigned(m, u)` (41_golomb.md R150). -/
def BitChannel.encodeUnsigned (m u : Nat) (b : BitChannel) : BitChannel :=
  let unary := (b.writeOnes (u / m)).writeBit false
  let r := u % m
  if codeBits m = 0 then unary
  else if r < cutoff m then unary.writeBits r (codeBits m - 1)
  else unary.writeBits (r + cutoff m) (codeBits m)

/-- `EncodeSigned(m, neg, n)` (41_golomb.md R152). -/
def BitChannel.encodeSigned (m : Nat) (scheme : Scheme) (n : Int) (b : BitChannel) : BitChannel :=
  match scheme with
  | .zigZag => b.encodeUnsigned m (zz n)
  | .signMagnitude =>
    if n = 0 then b.encodeUnsigned m 0
    else (b.encodeUnsigned m n.natAbs).writeBit (decide (n < 0))

/-! ### Decoding -/

/-- The unary loop of `DecodeUnsigned` with `q` one-bits read so far: it ends at the first zero-bit,
and raises CODE_OVERFLOW as soon as `q·m > 2^32 - 1` (41_golomb.md R151). `fuel` is the number of bits
that remain, one consumed per pass, so at 0 the next read would raise END_OF_STREAM. -/
def readUnary (m : Nat) : Nat → Nat → Reader Nat
  | 0, _ => throw .endOfStream
  | fuel + 1, q => do
    let t ← readBit
    if t = false then return q
    raiseIf ((q + 1) * m > Config.maxCodeValue) .codeOverflow
    readUnary m fuel (q + 1)

/-- The remainder of `DecodeUnsigned`: no bit for `m = 1`; else `b - 1` bits, and one more when their
value is at least the cutoff, folded as `((r << 1) OR bit) - cutoff` (41_golomb.md R151,
90_conflicts.md C1, C2). -/
def readRemainder (m : Nat) : Reader Nat :=
  if codeBits m = 0 then return 0
  else do
    let r ← readBits (codeBits m - 1)
    if r < cutoff m then return r
    let t ← readBits 1
    return 2 * r + t - cutoff m

/-- `DecodeUnsigned(m)` (41_golomb.md R151). -/
def decodeUnsigned (m : Nat) : Reader Nat := do
  let b ← get
  let q ← readUnary m b.remaining 0
  let r ← readRemainder m
  raiseIf (q * m + r > Config.maxCodeValue) .codeOverflow
  return q * m + r

/-- `DecodeSigned(m, neg)` (41_golomb.md R153). -/
def decodeSigned (m : Nat) (scheme : Scheme) : Reader Int := do
  let u ← decodeUnsigned m
  match scheme with
  | .zigZag => return unzz u
  | .signMagnitude =>
    if u = 0 then return 0
    let s ← readBit
    let n : Int := if s then -(u : Int) else (u : Int)
    raiseIf (¬ InInt32 n) .valueRange
    return n

/-! ### Commands -/

/-- The guards of the four coding commands, in order: phase, mode, coder constructed
(41_golomb.md R156). -/
def needCoder (mode : BcMode) : Cmd Unit := do
  needPhase [.idle]
  needMode [mode]
  let s ← get
  raiseIf (int32 s.grM ≤ 0) .badM

/-- GR_CONFIG (41_golomb.md R160). -/
def execGrConfig (s : State) : Host.Outcome State Fault Refusal :=
  execute (do
    let s ← get
    raiseIf (s.configM ≤ 0) .badM
    raiseIf (s.configScheme > 1) .badNeg
    change fun s => { s with
      grM := s.arg0
      grNeg := if s.configScheme = 0 then .zigZag else .signMagnitude }) s

/-- GR_ENC_U (41_golomb.md R161). -/
def execGrEncU (s : State) : Host.Outcome State Fault Refusal :=
  execute (do
    needCoder .write
    change fun s => { s with bc := s.bc.encodeUnsigned s.coderM s.encodeU }) s

/-- GR_DEC_U (41_golomb.md R162). -/
def execGrDecU (s : State) : Host.Outcome State Fault Refusal :=
  execute (do
    needCoder .read
    let s ← get
    let u ← onChannel (decodeUnsigned s.coderM)
    change fun s => { s with res0 := u32 u }) s

/-- GR_ENC_S (41_golomb.md R163). -/
def execGrEncS (s : State) : Host.Outcome State Fault Refusal :=
  execute (do
    needCoder .write
    change fun s => { s with bc := s.bc.encodeSigned s.coderM s.grNeg s.encodeS }) s

/-- GR_DEC_S (41_golomb.md R164). -/
def execGrDecS (s : State) : Host.Outcome State Fault Refusal :=
  execute (do
    needCoder .read
    let s ← get
    let n ← onChannel (decodeSigned s.coderM s.grNeg)
    change fun s => { s with res0 := u32 n }) s

end Sys2Proof.Machine
end

