-- ==== Sys2Proof/Machine/Predictor.lean ====
section
/-!
DEFINITION. The LinearPredictor and the StereoDecorrelator as functions over the integers
(42_predictor_stereo.md R190, R192, R193) and their three commands (R191, R194, R195).
-/

namespace Sys2Proof.Machine

/-- `Predict(order, s1, s2, s3)` (42_predictor_stereo.md R190). Every caller has checked
`order ≤ 3` (R191, 44_container.md R250, R254); log 9. -/
def predict (order : Nat) (s1 s2 s3 : Int) : Int :=
  match order with
  | 0 => 0
  | 1 => s1
  | 2 => 2 * s1 - s2
  | _ => 3 * s1 - 3 * s2 + s3

/-- `floorDiv2(x) = x >>a 1`, rounding toward negative infinity (00_scope.md R13). -/
def floorDiv2 (x : Int) : Int := x.fdiv 2

/-- `ToMidSide(L, R) = (mid, side)` (42_predictor_stereo.md R192). -/
def toMidSide (l r : Int) : Int × Int := (floorDiv2 (l + r), l - r)

/-- `ToLeftRight(mid, side) = (L, R)` (42_predictor_stereo.md R193). -/
def toLeftRight (mid side : Int) : Int × Int := (mid + floorDiv2 (side + 1), mid - floorDiv2 side)

/-- LP_PREDICT (42_predictor_stereo.md R191). -/
def execLpPredict (n : Nat) (s : State) : Host.Outcome State Fault Refusal :=
  execute (do
    raiseIf (n > Config.maxOrder) .badOrder
    change fun s => { s with res0 := u32 (predict n s.history1 s.history2 s.history3) }) s

/-- SD_TO_MS (42_predictor_stereo.md R194). -/
def execSdToMs (s : State) : Host.Outcome State Fault Refusal :=
  execute (change fun s => { s with
    res0 := u32 (toMidSide s.left s.right).1
    res1 := u32 (toMidSide s.left s.right).2 }) s

/-- SD_TO_LR (42_predictor_stereo.md R195). -/
def execSdToLr (s : State) : Host.Outcome State Fault Refusal :=
  execute (change fun s => { s with
    res0 := u32 (toLeftRight s.mid s.side).1
    res1 := u32 (toLeftRight s.mid s.side).2 }) s

end Sys2Proof.Machine
end

