-- ==== Sys2Proof/Machine/Block.lean ====
section
/-!
DEFINITION. The BlockCodec: geometry, channel samples, residuals, one block encoded and one block
decoded (43_block_codec.md R210 to R218, R230 to R238), and its three commands.
-/

namespace Sys2Proof.Machine

/-! ### Geometry and samples -/

/-- `len = min(B, T - f0)`, the length of the block that starts at frame `f0`
(43_block_codec.md R210). -/
def Header.blockLen (h : Header) (f0 : Nat) : Nat :=
  min h.blockSize.toNat (h.totalFrames.toNat - f0)

/-- `w = min(P, len)`, the warmup count (43_block_codec.md R210, 30_encoding.md R92). -/
def Header.warmup (h : Header) (len : Nat) : Nat := min h.order.toNat len

/-- `PCM_IN[k]` as an integer; past the end it is a free value, which no run meets (log 8). -/
def pcmAt (pcm : List Sample) (k : Nat) : Int :=
  sampleInt (pcm.getD k (Config.absentSample k))

/-- The channel samples `x_0`, `x_1` of the block of `len` frames from `f0` (43_block_codec.md R211):
mid and side with two channels, the samples themselves and no side channel with one
(42_predictor_stereo.md R198). -/
def Header.channelSamples (h : Header) (pcm : List Sample) (f0 len : Nat) : List Int × List Int :=
  if h.stereo then
    let ms := (List.range len).map fun i =>
      toMidSide (pcmAt pcm (2 * (f0 + i))) (pcmAt pcm (2 * (f0 + i) + 1))
    (ms.map Prod.fst, ms.map Prod.snd)
  else ((List.range len).map fun i => pcmAt pcm (f0 + i), [])

/-- `Predict(P, x[i-1], x[i-2], x[i-3])` from the samples before `i`, latest first
(43_block_codec.md R212). Entries beyond the order are not used. -/
def predictFrom (order : Nat) (prev : List Int) : Int :=
  predict order (prev.getD 0 0) (prev.getD 1 0) (prev.getD 2 0)

/-- The values a channel codes, in order: the sample itself for the first `w`, then the residuals
`e[i] = x[i] - Predict(...)` (43_block_codec.md R212, R218). `i` counts the samples before, `prev`
holds them, latest first. -/
def codedFrom (order w : Nat) : Nat → List Int → List Int → List Int
  | _, _, [] => []
  | i, prev, x :: xs =>
    (if i < w then x else x - predictFrom order prev) :: codedFrom order w (i + 1) (x :: prev) xs

/-- The coded values of a whole channel of a block. -/
def codedValues (order w : Nat) (xs : List Int) : List Int := codedFrom order w 0 [] xs

/-- `S_c`: the sum of `|e|` over the residuals, warmup excluded (43_block_codec.md R213). -/
def residualSum (order w : Nat) (xs : List Int) : Nat :=
  (((codedValues order w xs).drop w).map Int.natAbs).sum

/-- `m_c` of a channel on encode: the estimate in dynamic mode, the header's in static mode
(43_block_codec.md R217). -/
def Header.encodeDivisor (h : Header) (w : Nat) (xs : List Int) : Nat :=
  if h.dynamic = 1 then estimate (residualSum h.order.toNat w xs) (xs.length - w)
  else h.staticDivisor

/-! ### Encoding one block -/

/-- `EncodeSigned` of each value in turn (43_block_codec.md R218). -/
def BitChannel.encodeAll (m : Nat) (scheme : Scheme) (vs : List Int) (b : BitChannel) : BitChannel :=
  vs.foldl (fun c v => c.encodeSigned m scheme v) b

/-- The bits of one block: the `m` fields in dynamic mode, midM then sideM, then the mid codes, then
the side codes (43_block_codec.md R218). -/
def BitChannel.encodeBlock (h : Header) (x0 x1 : List Int) (b : BitChannel) : BitChannel :=
  let w := h.warmup x0.length
  let m0 := h.encodeDivisor w x0
  let m1 := h.encodeDivisor w x1
  let b := if h.dynamic = 1 then b.writeBits m0 32 else b
  let b := if h.dynamic = 1 ∧ h.stereo then b.writeBits m1 32 else b
  let b := b.encodeAll m0 h.scheme (codedValues h.order.toNat w x0)
  if h.stereo then b.encodeAll m1 h.scheme (codedValues h.order.toNat w x1) else b

/-- `EncodeBlock` on the state: the bits, the history, FRAMES_DONE (43_block_codec.md R218, R235). -/
def State.encodeBlock (s : State) : State :=
  let len := s.hdr.blockLen s.framesDone
  let x := s.hdr.channelSamples s.pcmIn s.framesDone len
  { s with
    bc := s.bc.encodeBlock s.hdr x.1 x.2
    hist0 := s.hist0 ++ x.1
    hist1 := s.hist1 ++ x.2
    framesDone := s.framesDone + len }

/-- `if FRAMES_DONE = T: phase <- P` (43_block_codec.md R219, R234). -/
def State.endRun (p : Phase) (s : State) : State :=
  if s.framesDone = s.hdr.totalFrames.toNat then { s with phase := p } else s

/-- The body of BLK_ENCODE_NEXT after its guards (43_block_codec.md R219). -/
def encodeNextBody : Cmd Unit := change fun s => s.encodeBlock.endRun .encEnd

/-! ### Decoding one block -/

/-- One decoded `m` field, checked right after it is read (43_block_codec.md R230). -/
def readParam : Reader Nat := do
  let v ← readBits 32
  raiseIf (int32 (BitVec.ofNat 32 v) ≤ 0) .badParam
  return v

/-- The divisors `m_0`, `m_1` of a block on decode (43_block_codec.md R230). A mono block has no second
one; the static divisor stands in its place and is not used. -/
def readParams (h : Header) : Reader (Nat × Nat) :=
  if h.dynamic = 1 then do
    let m0 ← readParam
    if h.stereo = false then return (m0, h.staticDivisor)
    let m1 ← readParam
    return (m0, m1)
  else return (h.staticDivisor, h.staticDivisor)

/-- One channel of a block: `n` samples still to decode, `i` decoded, `prev` the decoded ones, latest
first. Each sample is checked against `lo ≤ x ≤ hi` right after it is formed
(43_block_codec.md R231, R232). -/
def readChannel (m : Nat) (scheme : Scheme) (order w : Nat) (lo hi : Int) :
    Nat → Nat → List Int → Reader (List Int)
  | 0, _, prev => return prev.reverse
  | n + 1, i, prev => do
    let d ← decodeSigned m scheme
    let x := if i < w then d else predictFrom order prev + d
    raiseIf (¬ (lo ≤ x ∧ x ≤ hi)) .sampleRange
    readChannel m scheme order w lo hi n (i + 1) (x :: prev)

/-- The left and right samples of a stereo block, or the mono samples, in frame order, L before R
(43_block_codec.md R233, R238). -/
def Header.outputSamples (h : Header) (x0 x1 : List Int) : List Int :=
  if h.stereo then
    (List.zipWith toLeftRight x0 x1).flatMap fun lr => [lr.1, lr.2]
  else x0

/-- One block's channels: parameters, mid or mono channel, side channel, and the check of the samples
to put out (43_block_codec.md R230 to R233). -/
def readBlock (h : Header) (len : Nat) : Reader (List Int × List Int) := do
  let w := h.warmup len
  let m ← readParams h
  let x0 ← readChannel m.1 h.scheme h.order.toNat w (-32768) 32767 len 0 []
  if h.stereo = false then return (x0, [])
  let x1 ← readChannel m.2 h.scheme h.order.toNat w (-Config.sideBound) Config.sideBound len 0 []
  raiseIf (¬ ∀ y ∈ h.outputSamples x0 x1, InInt16 y) .sampleRange
  return (x0, x1)

/-- What a decoded block adds to the state: PCM_OUT, the history, FRAMES_DONE
(43_block_codec.md R234, R235, R238). -/
def State.appendBlock (x : List Int × List Int) (s : State) : State :=
  { s with
    pcmOut := s.pcmOut ++ (s.hdr.outputSamples x.1 x.2).map sampleOf
    hist0 := s.hist0 ++ x.1
    hist1 := s.hist1 ++ x.2
    framesDone := s.framesDone + s.hdr.blockLen s.framesDone }

/-- The body of BLK_DECODE_NEXT after its guards (43_block_codec.md R234). -/
def decodeNextBody : Cmd Unit := do
  let s ← get
  let x ← onChannel (structural (readBlock s.hdr (s.hdr.blockLen s.framesDone)))
  change fun s => (s.appendBlock x).endRun .decEnd

/-! ### Commands -/

/-- BLK_ESTIMATE (43_block_codec.md R220). -/
def execBlkEstimate (s : State) : Host.Outcome State Fault Refusal :=
  execute (change fun s => { s with res0 := u32 (estimate s.estimateSum s.estimateCount) }) s

/-- BLK_ENCODE_NEXT (43_block_codec.md R219). -/
def execBlkEncodeNext (s : State) : Host.Outcome State Fault Refusal :=
  execute (do
    needPhase [.encBlocks]
    needMode [.write]
    encodeNextBody) s

/-- BLK_DECODE_NEXT (43_block_codec.md R234). -/
def execBlkDecodeNext (s : State) : Host.Outcome State Fault Refusal :=
  execute (do
    needPhase [.decBlocks]
    needMode [.read]
    decodeNextBody) s

end Sys2Proof.Machine
end

