-- ==== Sys2Proof/Machine/Container.lean ====
section
/-!
DEFINITION. The container: header validation, writing and reading (44_container.md R250, R251, R253,
R254) and the four container commands (R252, R255 to R257).
-/

namespace Sys2Proof.Machine

/-! ### The header on encode -/

/-- `ValidateCfg()`: the first failing check raises (44_container.md R250). -/
def validateCfg : Cmd Unit := do
  let s ← get
  raiseIf (s.cfg.blockSize = 0) .badBlockSize
  raiseIf (s.cfg.channels ≠ 1 ∧ s.cfg.channels ≠ 2) .badChannels
  raiseIf (s.cfg.order.toNat > Config.maxOrder) .badOrder
  raiseIf (s.cfg.neg.toNat > 1) .badNeg
  raiseIf (s.cfg.dynamic = 0 ∧ int32 s.cfg.staticM ≤ 0) .badM
  raiseIf (s.pcmIn.length ≠ s.cfg.channels.toNat * s.cfg.totalFrames.toNat) .pcmLength

/-- `WriteHeader()` (44_container.md R251, 30_encoding.md R89). -/
def BitChannel.writeHeader (h : Header) (b : BitChannel) : BitChannel :=
  let b := b.writeBits h.sampleRate.toNat 32
  let b := b.writeBits h.totalFrames.toNat 32
  let b := b.writeBits h.blockSize.toNat 16
  let b := b.writeBits h.channels.toNat 8
  let b := b.writeBits h.order.toNat 8
  let b := b.writeBits h.neg.toNat 8
  let b := b.writeBits h.dynamic.toNat 1
  if h.dynamic = 0 then b.writeBits h.staticM.toNat 32 else b

/-- Start a file run with header `h`: the latch, FRAMES_DONE, the history and the phase, which is `p`
when blocks remain and `q` when `totalFrames = 0` (44_container.md R252, R255). -/
def State.startRun (h : Header) (p q : Phase) (s : State) : State :=
  { s with
    hdr := h
    hdrValid := true
    framesDone := 0
    hist0 := []
    hist1 := []
    phase := if h.totalFrames = 0 then q else p }

/-- The body of HDR_WRITE after its guards (44_container.md R252). -/
def headerWriteBody : Cmd Unit := do
  validateCfg
  change fun s => { s.startRun s.cfg .encBlocks .encEnd with bc := s.bc.writeHeader s.cfg }

/-! ### The header on decode -/

/-- `sm <- (dy = 0) ? ReadBits(32) : 0` (44_container.md R253). -/
def readStaticM (dy : Nat) : Reader Nat := if dy = 0 then readBits 32 else pure 0

/-- `ReadHeader()` (44_container.md R253). -/
def readHeader : Reader Header := do
  let sr ← readBits 32
  let tf ← readBits 32
  let bs ← readBits 16
  let ch ← readBits 8
  let po ← readBits 8
  let ng ← readBits 8
  let dy ← readBits 1
  let sm ← readStaticM dy
  return {
    sampleRate := BitVec.ofNat 32 sr
    totalFrames := BitVec.ofNat 32 tf
    blockSize := BitVec.ofNat 16 bs
    channels := BitVec.ofNat 8 ch
    order := BitVec.ofNat 8 po
    neg := BitVec.ofNat 8 ng
    dynamic := BitVec.ofNat 1 dy
    staticM := BitVec.ofNat 32 sm }

/-- `ValidateHdr()` (44_container.md R254). -/
def validateHdr (h : Header) : Reader Unit := do
  raiseIf (h.blockSize = 0 ∨ (h.channels ≠ 1 ∧ h.channels ≠ 2) ∨ h.order.toNat > Config.maxOrder
    ∨ h.neg.toNat > 1) .badHeader
  raiseIf (h.dynamic = 0 ∧ int32 h.staticM ≤ 0) .badParam

/-- The body of HDR_READ after its guards: nothing but the BitChannel changes unless the whole header
is read and valid (44_container.md R255, 60_exceptions.md R315). -/
def headerReadBody : Cmd Unit := do
  let h ← onChannel (structural readHeader)
  onChannel (validateHdr h)
  change fun s => { s.startRun h .decBlocks .decEnd with cfg := h, pcmOut := [] }

/-! ### Whole files -/

/-- `while phase = P: body`, at most `fuel` times (44_container.md R256, R257). Each block codes at
least one frame, so `totalFrames` passes are enough (30_encoding.md R81; log 13). -/
def whilePhase (p : Phase) (body : Cmd Unit) : Nat → Cmd Unit
  | 0 => pure ()
  | fuel + 1 => do
    let s ← get
    if s.phase = p then
      body
      whilePhase p body fuel

/-- Code every block of the run (44_container.md R256, R257). -/
def allBlocks (p : Phase) (body : Cmd Unit) : Cmd Unit := do
  let s ← get
  whilePhase p body s.hdr.totalFrames.toNat

/-- HDR_WRITE (44_container.md R252). -/
def execHdrWrite (s : State) : Host.Outcome State Fault Refusal :=
  execute (do
    needPhase [.idle]
    needMode [.write]
    headerWriteBody) s

/-- HDR_READ (44_container.md R255). -/
def execHdrRead (s : State) : Host.Outcome State Fault Refusal :=
  execute (do
    needPhase [.idle]
    needMode [.read]
    headerReadBody) s

/-- ENCODE_FILE (44_container.md R256): the configuration is validated before any I/O. -/
def execEncodeFile (s : State) : Host.Outcome State Fault Refusal :=
  execute (do
    needPhase [.idle]
    needMode [.idle, .closed]
    validateCfg
    openWriteBody
    headerWriteBody
    allBlocks .encBlocks encodeNextBody
    closeBody) s

/-- DECODE_FILE (44_container.md R257). -/
def execDecodeFile (s : State) : Host.Outcome State Fault Refusal :=
  execute (do
    needPhase [.idle]
    needMode [.idle, .closed]
    openReadBody
    headerReadBody
    allBlocks .decBlocks decodeNextBody
    closeBody) s

end Sys2Proof.Machine
end

