-- ==== Sys2Proof/Machine/Control.lean ====
section
/-!
DEFINITION. The control commands NOP and SOFT_RESET (45_control.md).
-/

namespace Sys2Proof.Machine

/-- NOP: no effect but its completion (45_control.md R280). -/
def execNop (s : State) : Host.Outcome State Fault Refusal := execute (pure ()) s

/-- SOFT_RESET: every state element to its reset value except the host streams, then DONE = 1
(45_control.md R281, 70_reset_and_hazards.md R341). -/
def execSoftReset (s : State) : Host.Outcome State Fault Refusal :=
  execute (change State.coreReset) s

end Sys2Proof.Machine
end

