-- ==== Sys2Proof/Machine/Dispatch.lean ====
section
/-!
DEFINITION. One arm per command of the opcode map (30_encoding.md R84).
-/

namespace Sys2Proof.Machine

def exec (i : Instr) (s : State) : Host.Outcome State Fault Refusal :=
  match i with
  | .nop => Sys2Proof.Machine.execNop s
  | .softReset => Sys2Proof.Machine.execSoftReset s
  | .bcOpenWrite => Sys2Proof.Machine.execBcOpenWrite s
  | .bcOpenRead => Sys2Proof.Machine.execBcOpenRead s
  | .bcWriteBits n => Sys2Proof.Machine.execBcWriteBits n s
  | .bcWriteBit => Sys2Proof.Machine.execBcWriteBit s
  | .bcReadBits n => Sys2Proof.Machine.execBcReadBits n s
  | .bcReadBit => Sys2Proof.Machine.execBcReadBit s
  | .bcClose => Sys2Proof.Machine.execBcClose s
  | .grConfig => Sys2Proof.Machine.execGrConfig s
  | .grEncU => Sys2Proof.Machine.execGrEncU s
  | .grDecU => Sys2Proof.Machine.execGrDecU s
  | .grEncS => Sys2Proof.Machine.execGrEncS s
  | .grDecS => Sys2Proof.Machine.execGrDecS s
  | .lpPredict n => Sys2Proof.Machine.execLpPredict n s
  | .sdToMs => Sys2Proof.Machine.execSdToMs s
  | .sdToLr => Sys2Proof.Machine.execSdToLr s
  | .blkEstimate => Sys2Proof.Machine.execBlkEstimate s
  | .blkEncodeNext => Sys2Proof.Machine.execBlkEncodeNext s
  | .blkDecodeNext => Sys2Proof.Machine.execBlkDecodeNext s
  | .hdrWrite => Sys2Proof.Machine.execHdrWrite s
  | .hdrRead => Sys2Proof.Machine.execHdrRead s
  | .encodeFile => Sys2Proof.Machine.execEncodeFile s
  | .decodeFile => Sys2Proof.Machine.execDecodeFile s

end Sys2Proof.Machine
end

