-- ==== Sys2Proof/Machine/Flags.lean ====
section
/-!
DEFINITION. The status views: the numbers of error classes and details (60_exceptions.md R306), the
mode and phase codes (10_state.md R28, R33), the STATUS word (R23 to R28) and the BC_STATE word (R31).
-/

namespace Sys2Proof.Machine

/-- STATUS.ERRCODE of an error: 1 CONFIGURATION, 2 END_OF_STREAM, 3 CORRUPT_STREAM, 4 IO,
5 ILLEGAL_COMMAND (10_state.md R26, 60_exceptions.md R306). -/
def Raise.errcode : Raise → Nat
  | .badM => 1
  | .badOrder => 1
  | .badChannels => 1
  | .badBlockSize => 1
  | .badNeg => 1
  | .pcmLength => 1
  | .endOfStream => 2
  | .unexpectedEos => 3
  | .badParam => 3
  | .codeOverflow => 3
  | .valueRange => 3
  | .sampleRange => 3
  | .badHeader => 3
  | .openFailed => 4
  | .closeFailed => 4
  | .undefinedOpcode => 5
  | .reservedBits => 5
  | .badBitCount => 5
  | .wrongBcMode => 5
  | .wrongPhase => 5

/-- STATUS.DETAIL of an error (60_exceptions.md R306). -/
def Raise.detail : Raise → Nat
  | .badM => 1
  | .badOrder => 2
  | .badChannels => 3
  | .badBlockSize => 4
  | .badNeg => 5
  | .pcmLength => 6
  | .endOfStream => 0
  | .unexpectedEos => 1
  | .badParam => 2
  | .codeOverflow => 3
  | .valueRange => 4
  | .sampleRange => 5
  | .badHeader => 6
  | .openFailed => 1
  | .closeFailed => 2
  | .undefinedOpcode => 1
  | .reservedBits => 2
  | .badBitCount => 3
  | .wrongBcMode => 4
  | .wrongPhase => 5

/-- STATUS.BCMODE: 0 IDLE, 1 WRITE, 2 READ, 3 CLOSED (10_state.md R28). -/
def BcMode.code : BcMode → Nat
  | .idle => 0
  | .write => 1
  | .read => 2
  | .closed => 3

/-- STATUS.PHASE: 0 IDLE, 1 ENC_BLOCKS, 2 ENC_END, 3 DEC_BLOCKS, 4 DEC_END (10_state.md R33). -/
def Phase.code : Phase → Nat
  | .idle => 0
  | .encBlocks => 1
  | .encEnd => 2
  | .decBlocks => 3
  | .decEnd => 4

/-- GR_NEG bit: 0 ZigZag, 1 SignMagnitude (10_state.md R35). -/
def Scheme.code : Scheme → Nat
  | .zigZag => 0
  | .signMagnitude => 1

/-- STATUS.BUSY: 1 exactly when a command is in flight (10_state.md R23, R48). -/
def State.busy (s : State) : Bool := s.cur.isSome

/-- STATUS.ERR (10_state.md R25). -/
def State.err (s : State) : Bool := s.error.isSome

/-- STATUS.ERRCODE, 0 while ERR = 0 (10_state.md R26). -/
def State.errcode (s : State) : Nat :=
  match s.error with
  | none => 0
  | some e => e.errcode

/-- STATUS.DETAIL, 0 while ERR = 0 (10_state.md R27). -/
def State.detail (s : State) : Nat :=
  match s.error with
  | none => 0
  | some e => e.detail

/-- The STATUS word as it reads while BUSY = 0: DONE in bit 1, ERR in bit 2, ERRCODE in bits 7:4,
DETAIL in bits 15:8, BCMODE in bits 17:16, PHASE in bits 20:18; bit 3 and bits 31:21 read 0
(10_state.md R23 to R28, R33). -/
def State.statusIdle (s : State) : Word :=
  BitVec.ofNat 32
    (2 * s.done.toNat + 4 * s.err.toNat + 16 * s.errcode + 256 * s.detail
      + 65536 * s.bc.mode.code + 262144 * s.phase.code)

/-- The STATUS word as it reads while BUSY = 1: BUSY is 1, DONE, ERR, ERRCODE and DETAIL are 0, and
BCMODE and PHASE are whatever the draw `free` says (20_memory.md R75). -/
def statusBusy (free : Word) : Word := 1#32 ||| (free &&& 0x001F0000#32)

/-- BC_STATE: POS in bits 2:0 and PENDING in bits 15:8. WRITE mode shows `wpos` and `wpend`, READ mode
`rdpos mod 8`, IDLE and CLOSED show 0 (10_state.md R31). -/
def BitChannel.stateWord (b : BitChannel) : Word :=
  match b.mode with
  | .write => BitVec.ofNat 32 (b.wpos.val + 256 * b.wpend.toNat)
  | .read => BitVec.ofNat 32 (b.rdpos % 8)
  | .idle => 0#32
  | .closed => 0#32

end Sys2Proof.Machine
end

