-- ==== Sys2Proof/Machine/Host.lean ====
section
/-!
DEFINITION. The host's moves: the register map (10_state.md R21), register reads and writes
(20_memory.md R61 to R63, R75), issue of a command (30_encoding.md R80), the streams the host supplies
and looks at (20_memory.md R64 to R68), hardware reset (70_reset_and_hazards.md R340).
-/

namespace Sys2Proof.Machine

/-- The twenty registers (10_state.md R21). -/
inductive Reg where
  | cmd | status | arg0 | arg1 | arg2 | res0 | res1 | bcState | bcByteCount | framesDone | grM | grNeg
  | cfgSampleRate | cfgTotalFrames | cfgBlockSize | cfgChannels | cfgOrder | cfgNeg | cfgDynamic
  | cfgStaticM
  deriving DecidableEq, Repr

/-- The register map: byte offsets 0x00 to 0x4C (10_state.md R21). -/
def regMap : List (Nat × Reg) :=
  [(0x00, .cmd), (0x04, .status), (0x08, .arg0), (0x0C, .arg1), (0x10, .arg2), (0x14, .res0),
   (0x18, .res1), (0x1C, .bcState), (0x20, .bcByteCount), (0x24, .framesDone), (0x28, .grM),
   (0x2C, .grNeg), (0x30, .cfgSampleRate), (0x34, .cfgTotalFrames), (0x38, .cfgBlockSize),
   (0x3C, .cfgChannels), (0x40, .cfgOrder), (0x44, .cfgNeg), (0x48, .cfgDynamic),
   (0x4C, .cfgStaticM)]

/-- The register an access names: size 4 at an offset of the map, and nothing otherwise
(20_memory.md R62). -/
def regAt (off size : Nat) : Option Reg := if size = 4 then regMap.lookup off else none

/-- The value a register reads as while BUSY = 0, zero-extended; CMD reads 0 (20_memory.md R61,
10_state.md R22 to R44). -/
def State.readReg (s : State) : Reg → Word
  | .cmd => 0
  | .status => s.statusIdle
  | .arg0 => s.arg0
  | .arg1 => s.arg1
  | .arg2 => s.arg2
  | .res0 => s.res0
  | .res1 => s.res1
  | .bcState => s.bc.stateWord
  | .bcByteCount => s.bc.count
  | .framesDone => BitVec.ofNat 32 s.framesDone
  | .grM => s.grM
  | .grNeg => BitVec.ofNat 32 s.grNeg.code
  | .cfgSampleRate => s.cfg.sampleRate
  | .cfgTotalFrames => s.cfg.totalFrames
  | .cfgBlockSize => s.cfg.blockSize.setWidth 32
  | .cfgChannels => s.cfg.channels.setWidth 32
  | .cfgOrder => s.cfg.order.setWidth 32
  | .cfgNeg => s.cfg.neg.setWidth 32
  | .cfgDynamic => s.cfg.dynamic.setWidth 32
  | .cfgStaticM => s.cfg.staticM

/-- The value a register reads as while BUSY = 1: STATUS has its BUSY form, every other register is
unspecified (20_memory.md R75; log 3). -/
def State.readRegBusy (s : State) : Reg → Word
  | .status => statusBusy (Config.busyWord s.draws)
  | _ => Config.busyWord s.draws

/-- A host write to CMD: with ERR = 1 every word but 0x00000001 is dropped (30_encoding.md R80). -/
def State.writeCmd (v : Word) (s : State) : State :=
  if s.err = true ∧ v ≠ 1#32 then s else s.issue v

/-- A host write to a register while BUSY = 0: ARG registers take the word, CFG registers its low bits,
read-only registers ignore it, CMD issues it (20_memory.md R63). -/
def State.writeReg (v : Word) (s : State) : Reg → State
  | .cmd => s.writeCmd v
  | .status => s
  | .arg0 => { s with arg0 := v }
  | .arg1 => { s with arg1 := v }
  | .arg2 => { s with arg2 := v }
  | .res0 => s
  | .res1 => s
  | .bcState => s
  | .bcByteCount => s
  | .framesDone => s
  | .grM => s
  | .grNeg => s
  | .cfgSampleRate => { s with cfg := { s.cfg with sampleRate := v } }
  | .cfgTotalFrames => { s with cfg := { s.cfg with totalFrames := v } }
  | .cfgBlockSize => { s with cfg := { s.cfg with blockSize := v.setWidth 16 } }
  | .cfgChannels => { s with cfg := { s.cfg with channels := v.setWidth 8 } }
  | .cfgOrder => { s with cfg := { s.cfg with order := v.setWidth 8 } }
  | .cfgNeg => { s with cfg := { s.cfg with neg := v.setWidth 8 } }
  | .cfgDynamic => { s with cfg := { s.cfg with dynamic := v.setWidth 1 } }
  | .cfgStaticM => { s with cfg := { s.cfg with staticM := v } }

/-- The state after a draw for something the host looks at while BUSY = 1. -/
def State.drawn (s : State) : State := { s with draws := s.draws + 1 }

/-- `MemRead`: the host sees the register's value; the core does not change (20_memory.md R61, R75,
R76). -/
def State.hostRead (r : Reg) (s : State) : State :=
  if s.busy then { s.drawn with seen := { s.seen with word := s.readRegBusy r } }
  else { s with seen := { s.seen with word := s.readReg r } }

/-- The host looks at BYTE_OUT, which is unspecified while BUSY = 1 (20_memory.md R64, R75). -/
def State.hostTakeBytes (s : State) : State :=
  if s.busy then { s.drawn with seen := { s.seen with bytes := Config.busyBytes s.draws } }
  else { s with seen := { s.seen with bytes := s.bc.byteOut } }

/-- The host looks at PCM_OUT, which is unspecified while BUSY = 1 (20_memory.md R68, R75). -/
def State.hostTakeSamples (s : State) : State :=
  if s.busy then { s.drawn with seen := { s.seen with samples := Config.busySamples s.draws } }
  else { s with seen := { s.seen with samples := s.pcmOut } }

/-- BYTE_IN must not change while `bcmode = READ` (70_reset_and_hazards.md R353), nor while a command
runs (20_memory.md R77; log 5). -/
def State.byteInFixed (s : State) : Bool := s.busy || s.bc.mode == .read

/-- PCM_IN must not change between a successful HDR_WRITE and the BC_CLOSE that follows it: the phases
ENC_BLOCKS and ENC_END (70_reset_and_hazards.md R353, 44_container.md R258), nor while a command runs
(20_memory.md R77; log 5). A BC_CLOSE, or the close step of ENCODE_FILE, that raises CLOSE_FAILED does not
end the window: the phase stays ENC_END, and the window lasts until a reset (DESIGN CHOICE: the spec does
not say; log 5). -/
def State.pcmInFixed (s : State) : Bool :=
  s.busy || s.phase == .encBlocks || s.phase == .encEnd

/-- One move of the host. -/
def hostMove (e : HostEvent) (s : State) : Host.Outcome State Fault Refusal :=
  match e with
  | .write off size v =>
    match regAt off size with
    | none => .fault .noSuchRegister
    | some r => if s.busy then .refused .hostWriteWhileBusy else .next (s.writeReg v r)
  | .read off size =>
    match regAt off size with
    | none => .fault .noSuchRegister
    | some r => .next (s.hostRead r)
  | .takeBytes => .next s.hostTakeBytes
  | .takeSamples => .next s.hostTakeSamples
  | .supplyBytes bs =>
    if s.byteInFixed then .refused .inputMustBeStable
    else .next { s with bc := { s.bc with byteIn := bs } }
  | .supplySamples xs =>
    if s.pcmInFixed then .refused .inputMustBeStable
    else .next { s with pcmIn := xs }
  | .hardReset => .next s.hardReset

/-- Which agent moves next, and the state with that turn taken off the list. With no turn listed the
core moves (log 1). -/
def State.nextTurn (s : State) : Turn × State :=
  match s.sched with
  | [] => (.core, s)
  | t :: rest => (t, { s with sched := rest })

end Sys2Proof.Machine
end

