-- ==== Sys2Proof/Machine/Step.lean ====
section
/-!
DEFINITION. One step of the machine: a turn of the host or of the core (10_state.md R20; log 1).
-/

namespace Sys2Proof.Machine

/-- The core's turn: with a command in flight, decode it and perform it as one atomic transition
(30_encoding.md R81 to R83); with none, nothing changes ("Between commands the core is idle, and all
state is kept", 60_exceptions.md R323). -/
def coreTurn (s : State) : Host.Outcome State Fault Refusal :=
  match s.cur with
  | none => .next s
  | some v =>
    match decode v with
    | .ok i => exec i s
    | .error d => rejectWord d s

/-- One step: the agent whose turn it is moves. -/
def step (s : State) : Host.Outcome State Fault Refusal :=
  match s.nextTurn with
  | (.core, t) => coreTurn t
  | (.host e, t) => hostMove e t

/-- The state in which the very next step runs the command whose bits are `w`: the word is in flight as
after its issue (30_encoding.md R80) and the turn is the core's (log 18). -/
def State.withFetchWord (s : State) (nbits w : Nat) : State :=
  { s.issue (BitVec.ofNat 32 (w % 2 ^ nbits)) with sched := .core :: s.sched }

end Sys2Proof.Machine
end

