-- ==== Sys2Proof/Machine/Format.lean ====
section
/-!
DEFINITION. The compressed bitstream as bit strings, written from the grammar of 30_encoding.md R88 to
R92 and R96 to R100 and from the byte layout of 20_memory.md R69, apart from the commands that
produce it. Statements compare the two.
-/

namespace Sys2Proof.Machine

/-- The eight bits of a byte in stream order, bit 7 first (20_memory.md R69). -/
def byteBits (x : Byte) : List Bool := binBits x.toNat 8

/-- The stream bits of a byte sequence (20_memory.md R69). -/
def streamOf (bs : List Byte) : List Bool := bs.flatMap byteBits

/-- The byte whose bits in stream order are the given ones, with zeros after them (20_memory.md R69,
30_encoding.md R88 `pad`). -/
def packByte (bits : List Bool) : Byte :=
  BitVec.ofNat 8 (((List.range 8).map fun j => (bits.getD j false).toNat * 2 ^ (7 - j)).sum)

/-- The bytes of a bit string, its last one padded with zeros: `⌈t/8⌉` bytes for `t` bits
(20_memory.md R69, 30_encoding.md R88 `pad`). -/
def packBits (bits : List Bool) : List Byte :=
  (List.range ((bits.length + 7) / 8)).map fun i => packByte (bits.drop (8 * i))

/-- The bits a writer has been given so far: those of BYTE_OUT and the `wpos` first ones of the pending
byte (10_state.md R45, 70_reset_and_hazards.md R356). -/
def BitChannel.written (b : BitChannel) : List Bool :=
  streamOf b.byteOut ++ (byteBits b.wpend).take b.wpos.val

/-- The bits a reader has still to read (40_bitchannel.md R121). -/
def BitChannel.unread (b : BitChannel) : List Bool := (streamOf b.byteIn).drop b.rdpos

/-- `header` of the grammar (30_encoding.md R88, R89). -/
def Header.bits (h : Header) : List Bool :=
  binBits h.sampleRate.toNat 32 ++ binBits h.totalFrames.toNat 32 ++ binBits h.blockSize.toNat 16
    ++ binBits h.channels.toNat 8 ++ binBits h.order.toNat 8 ++ binBits h.neg.toNat 8
    ++ [h.dynamic == 1]
    ++ (if h.dynamic = 0 then binBits h.staticM.toNat 32 else [])

/-- `chan(c)` of the grammar: `w` warmup codes, then the residual codes (30_encoding.md R88, R92). -/
def Header.channelBits (h : Header) (m : Nat) (xs : List Int) : List Bool :=
  (codedValues h.order.toNat (h.warmup xs.length) xs).flatMap (scode m h.scheme)

/-- `block` of the grammar, for divisors `m0`, `m1` and channels `x0`, `x1` (30_encoding.md R88, R91). -/
def Header.blockBits (h : Header) (m0 m1 : Nat) (x0 x1 : List Int) : List Bool :=
  (if h.dynamic = 1 then binBits m0 32 ++ (if h.stereo then binBits m1 32 else []) else [])
    ++ h.channelBits m0 x0 ++ (if h.stereo then h.channelBits m1 x1 else [])

/-- The bits of the block of the encoder that starts at frame `f0`, with the divisors it chooses
(43_block_codec.md R217, R218). -/
def Header.encodedBlockBits (h : Header) (pcm : List Sample) (f0 : Nat) : List Bool :=
  let len := h.blockLen f0
  let x := h.channelSamples pcm f0 len
  h.blockBits (h.encodeDivisor (h.warmup len) x.1) (h.encodeDivisor (h.warmup len) x.2) x.1 x.2

/-- The blocks from frame `f0` on; at most `fuel` of them (30_encoding.md R90). -/
def Header.blocksFrom (h : Header) (pcm : List Sample) : Nat → Nat → List Bool
  | 0, _ => []
  | fuel + 1, f0 =>
    if f0 < h.totalFrames.toNat then
      h.encodedBlockBits pcm f0 ++ h.blocksFrom pcm fuel (f0 + h.blockLen f0)
    else []

/-- `header block^nblocks` of the grammar, without the padding (30_encoding.md R88, R90). -/
def Header.fileBits (h : Header) (pcm : List Sample) : List Bool :=
  h.bits ++ h.blocksFrom pcm h.totalFrames.toNat 0

end Sys2Proof.Machine
end

