-- ==== Sys2Proof/Safety.lean ====
section
/-!
DEFINITION. What the spec's whole-machine sentences say of a state between two steps, as decidable
predicates; statements take them as an invariant.
-/

namespace Sys2Proof.Machine

/-- A header that may be in use: the legal values of 30_encoding.md R89 as 44_container.md R250 and R254
check them. -/
abbrev Header.Legal (h : Header) : Prop :=
  h.blockSize ≠ 0 ∧ (h.channels = 1 ∨ h.channels = 2) ∧ h.order.toNat ≤ 3 ∧ h.neg.toNat ≤ 1 ∧
    (h.dynamic = 0 → 0 < int32 h.staticM)

/-- The phases of an encode run. -/
def Phase.encoding (p : Phase) : Bool := p == .encBlocks || p == .encEnd

/-- The phases of a decode run. -/
def Phase.decoding (p : Phase) : Bool := p == .decBlocks || p == .decEnd

/-- The BitChannel is consistent: BC_BYTE_COUNT counts the bytes of BYTE_OUT in WRITE mode and the bytes
consumed in READ mode (10_state.md R32); a reader is within BYTE_IN (40_bitchannel.md R134); the unused
low bits of the pending byte are 0 (40_bitchannel.md R128); an open writer is not durable
(20_memory.md R66). -/
abbrev BitChannel.Inv (b : BitChannel) : Prop :=
  (b.mode = .write → b.count = BitVec.ofNat 32 b.byteOut.length) ∧
  (b.mode = .read → b.count = BitVec.ofNat 32 (b.rdpos / 8)) ∧
  (b.mode = .read → b.rdpos ≤ 8 * b.byteIn.length) ∧
  b.wpend.toNat % 2 ^ (8 - b.wpos.val) = 0 ∧
  (b.mode = .write → b.durable = false)

/-- A file run is consistent: an encode run has an open writer, a legal latched header and a PCM_IN of
the length it says; a decode run has an open reader and a legal latched header (44_container.md R250,
R252, R254, R255, R258). FRAMES_DONE never passes `totalFrames` (10_state.md R34) and the end phases
are those where it is reached (44_container.md R258). The history has one sample per frame done
(10_state.md R47) and PCM_OUT holds exactly the decoded blocks (43_block_codec.md R238). -/
abbrev State.RunInv (s : State) : Prop :=
  (s.phase.encoding = true → s.bc.mode = .write ∧ s.hdrValid = true ∧ s.hdr.Legal ∧
    s.pcmIn.length = s.hdr.channels.toNat * s.hdr.totalFrames.toNat) ∧
  (s.phase.decoding = true → s.bc.mode = .read ∧ s.hdrValid = true ∧ s.hdr.Legal ∧
    s.pcmOut.length = s.hdr.channels.toNat * s.framesDone) ∧
  s.framesDone ≤ s.hdr.totalFrames.toNat ∧
  (s.phase = .encBlocks ∨ s.phase = .decBlocks → s.framesDone < s.hdr.totalFrames.toNat) ∧
  (s.phase = .encEnd ∨ s.phase = .decEnd → s.framesDone = s.hdr.totalFrames.toNat) ∧
  s.hist0.length = s.framesDone

/-- The handshake and the error state are consistent: DONE is 0 while a command is in flight
(10_state.md R24) and after an error (60_exceptions.md R313); while ERR = 1 the only word in flight is
SOFT_RESET's (30_encoding.md R80, 60_exceptions.md R314); GR_M is 0 or a legal divisor
(41_golomb.md R156, R160). -/
abbrev State.HandshakeInv (s : State) : Prop :=
  (s.cur.isSome = true → s.done = false) ∧
  (s.error.isSome = true → s.done = false ∧ (s.cur = none ∨ s.cur = some 1#32)) ∧
  (s.grM = 0 ∨ 0 < int32 s.grM)

/-- The invariant of the machine. -/
abbrev State.Inv (s : State) : Prop := s.bc.Inv ∧ s.RunInv ∧ s.HandshakeInv

/-- A state from which a host has nothing to fear: no turn of the host that the spec gives no meaning is
listed to come at once (20_memory.md R62, R63; 70_reset_and_hazards.md R350, R353). -/
def State.hostTurnAllowed (s : State) : Bool :=
  match s.nextTurn with
  | (.core, _) => true
  | (.host e, t) =>
    match hostMove e t with
    | .next _ => true
    | .fault _ => false
    | .refused _ => false

end Sys2Proof.Machine
end

