-- ==== Sys2Proof/Certificates/Slice0/Obligations.lean ====
section
/-!
DEFINITION. The statements for the provers. `State.succeed`, `State.raiseError`, `State.afterDraw` and
`BitChannel.advance` are the record updates of a command's success (30_encoding.md R81), of error entry
(60_exceptions.md R313), of an IO draw (20_memory.md R70) and of a successful read (40_bitchannel.md
R127). A next state written as an update of `s` is the frame too: every field it does not name is that
of `s`. There is no byte-addressed memory (log 14): the four streams stand in its place.
-/

open Sys2Proof Sys2Proof.Machine

namespace Sys2Proof.Claims

/-- The reserved opcodes, range by range as 30_encoding.md R85 lists them. -/
abbrev ReservedOp (op : Nat) : Prop :=
  (0x02 ≤ op ∧ op ≤ 0x0F) ∨ (0x17 ≤ op ∧ op ≤ 0x1F) ∨ (0x25 ≤ op ∧ op ≤ 0x2F) ∨
    (0x33 ≤ op ∧ op ≤ 0x3F) ∨ (0x43 ≤ op ∧ op ≤ 0x4F) ∨ 0x54 ≤ op

/-- The opcodes whose row says "N used" (30_encoding.md R84). -/
def countedOps : List Nat := [0x12, 0x14, 0x30]

/-- The command's `N` is in the range its rule allows (60_exceptions.md R308 step 4). -/
def rangeOk : Instr → Bool
  | .bcWriteBits n => n ≤ 32
  | .bcReadBits n => n ≤ 32
  | .lpPredict n => n ≤ 3
  | _ => true

/-- The error of an `N` out of range (60_exceptions.md R308 step 4). -/
def rangeError : Instr → Raise
  | .lpPredict _ => .badOrder
  | _ => .badBitCount

/-- The phases in which a command is legal (44_container.md R258). -/
def legalPhases : Instr → List Phase
  | .blkEncodeNext => [.encBlocks]
  | .blkDecodeNext => [.decBlocks]
  | .bcClose => [.idle, .encEnd, .decEnd]
  | .nop => [.idle, .encBlocks, .encEnd, .decBlocks, .decEnd]
  | .softReset => [.idle, .encBlocks, .encEnd, .decBlocks, .decEnd]
  | .grConfig => [.idle, .encBlocks, .encEnd, .decBlocks, .decEnd]
  | .lpPredict _ => [.idle, .encBlocks, .encEnd, .decBlocks, .decEnd]
  | .sdToMs => [.idle, .encBlocks, .encEnd, .decBlocks, .decEnd]
  | .sdToLr => [.idle, .encBlocks, .encEnd, .decBlocks, .decEnd]
  | .blkEstimate => [.idle, .encBlocks, .encEnd, .decBlocks, .decEnd]
  | _ => [.idle]

/-- The BitChannel modes in which a command is legal, from its own rule (40_bitchannel.md R122 to R133,
41_golomb.md R156, 43_block_codec.md R219, R234, 44_container.md R252 to R257). -/
def legalModes : Instr → List BcMode
  | .bcOpenWrite => [.idle, .closed]
  | .bcOpenRead => [.idle, .closed]
  | .bcWriteBits _ => [.write]
  | .bcWriteBit => [.write]
  | .bcReadBits _ => [.read]
  | .bcReadBit => [.read]
  | .bcClose => [.write, .read]
  | .grEncU => [.write]
  | .grDecU => [.read]
  | .grEncS => [.write]
  | .grDecS => [.read]
  | .blkEncodeNext => [.write]
  | .blkDecodeNext => [.read]
  | .hdrWrite => [.write]
  | .hdrRead => [.read]
  | .encodeFile => [.idle, .closed]
  | .decodeFile => [.idle, .closed]
  | _ => [.idle, .write, .read, .closed]

/-- The errors each command can raise beyond those of decoding (60_exceptions.md R307). -/
def raisable : Instr → List Raise
  | .nop => []
  | .softReset => []
  | .sdToMs => []
  | .sdToLr => []
  | .blkEstimate => []
  | .bcOpenWrite => [.wrongPhase, .wrongBcMode, .openFailed]
  | .bcOpenRead => [.wrongPhase, .wrongBcMode, .openFailed]
  | .bcWriteBits _ => [.badBitCount, .wrongPhase, .wrongBcMode]
  | .bcWriteBit => [.wrongPhase, .wrongBcMode]
  | .bcReadBits _ => [.badBitCount, .wrongPhase, .wrongBcMode, .endOfStream]
  | .bcReadBit => [.wrongPhase, .wrongBcMode, .endOfStream]
  | .bcClose => [.wrongPhase, .wrongBcMode, .closeFailed]
  | .grConfig => [.badM, .badNeg]
  | .grEncU => [.wrongPhase, .wrongBcMode, .badM]
  | .grEncS => [.wrongPhase, .wrongBcMode, .badM]
  | .grDecU => [.wrongPhase, .wrongBcMode, .badM, .endOfStream, .codeOverflow]
  | .grDecS => [.wrongPhase, .wrongBcMode, .badM, .endOfStream, .codeOverflow, .valueRange]
  | .lpPredict _ => [.badOrder]
  | .blkEncodeNext => [.wrongPhase, .wrongBcMode]
  | .blkDecodeNext =>
    [.wrongPhase, .wrongBcMode, .unexpectedEos, .badParam, .codeOverflow, .valueRange, .sampleRange]
  | .hdrWrite =>
    [.wrongPhase, .wrongBcMode, .badBlockSize, .badChannels, .badOrder, .badNeg, .badM, .pcmLength]
  | .hdrRead => [.wrongPhase, .wrongBcMode, .unexpectedEos, .badHeader, .badParam]
  | .encodeFile =>
    [.wrongPhase, .wrongBcMode, .badBlockSize, .badChannels, .badOrder, .badNeg, .badM, .pcmLength,
     .openFailed, .closeFailed]
  | .decodeFile =>
    [.wrongPhase, .wrongBcMode, .openFailed, .unexpectedEos, .badHeader, .badParam, .codeOverflow,
     .valueRange, .sampleRange]

/-- The commands whose row of 30_encoding.md R84 says they write RES0. -/
def writesRes0 : Instr → Bool
  | .bcReadBits _ => true
  | .bcReadBit => true
  | .grDecU => true
  | .grDecS => true
  | .lpPredict _ => true
  | .sdToMs => true
  | .sdToLr => true
  | .blkEstimate => true
  | _ => false

/-- The commands that read the open reader. -/
def readsStream : Instr → Bool
  | .bcReadBits _ => true
  | .bcReadBit => true
  | .grDecU => true
  | .grDecS => true
  | .blkDecodeNext => true
  | .hdrRead => true
  | _ => false

/-- A state in which `i`, being HDR_WRITE or ENCODE_FILE, has passed its phase and mode guards and comes
to `ValidateCfg()` (44_container.md R252, R256). -/
abbrev StartsEncoding (i : Instr) (s : State) : Prop :=
  s.phase = .idle ∧
    ((i = .hdrWrite ∧ s.bc.mode = .write) ∨
      (i = .encodeFile ∧ (s.bc.mode = .idle ∨ s.bc.mode = .closed)))

/-- The checks that `ValidateCfg()` makes all pass (44_container.md R250). -/
abbrev ConfigOk (s : State) : Prop :=
  s.cfg.Legal ∧ s.pcmIn.length = s.cfg.channels.toNat * s.cfg.totalFrames.toNat

/-- Every bit of the pending byte not yet written is 0 (40_bitchannel.md R128). -/
abbrev PendingClean (b : BitChannel) : Prop := b.wpend.toNat % 2 ^ (8 - b.wpos.val) = 0

/-- The header a decoder reconstructs: `staticM` is 0 when `dynamicFlag = 1` (44_container.md R253). -/
def decodedForm (h : Header) : Header := if h.dynamic = 1 then { h with staticM := 0 } else h

/-- The twenty (class, detail) pairs with ERRCODE and DETAIL as 60_exceptions.md R306 numbers them. -/
def errorTable : List (Raise × Nat × Nat) :=
  [(.badM, 1, 1), (.badOrder, 1, 2), (.badChannels, 1, 3), (.badBlockSize, 1, 4), (.badNeg, 1, 5),
   (.pcmLength, 1, 6), (.endOfStream, 2, 0)] ++
  [(.unexpectedEos, 3, 1), (.badParam, 3, 2), (.codeOverflow, 3, 3), (.valueRange, 3, 4),
   (.sampleRange, 3, 5), (.badHeader, 3, 6), (.openFailed, 4, 1), (.closeFailed, 4, 2)] ++
  [(.undefinedOpcode, 5, 1), (.reservedBits, 5, 2), (.badBitCount, 5, 3), (.wrongBcMode, 5, 4),
   (.wrongPhase, 5, 5)]

/-- STATUS.BCMODE as 10_state.md R28 numbers it. -/
def modeTable : List (BcMode × Nat) := [(.idle, 0), (.write, 1), (.read, 2), (.closed, 3)]

/-- STATUS.PHASE as 10_state.md R33 numbers it. -/
def phaseTable : List (Phase × Nat) :=
  [(.idle, 0), (.encBlocks, 1), (.encEnd, 2), (.decBlocks, 3), (.decEnd, 4)]

/-- The reader after `k` bits were consumed: with none, no read succeeded and nothing was written
(40_bitchannel.md R127). -/
def consumed (k : Nat) (b : BitChannel) : BitChannel := if k = 0 then b else b.advance k

/-- The state after a command that consumed `k` bits and then raised `e`. -/
def failAt (k : Nat) (e : Raise) (s : State) : State :=
  { s with bc := consumed k s.bc }.raiseError e

/-- How many of `n` bits, too few for the header, its whole fields take (44_container.md R253: widths 32,
32, 16, 8, 8, 8, 1 and, in static mode, 32). -/
def headerCut (n : Nat) : Nat :=
  if n < 32 then 0 else if n < 64 then 32 else if n < 80 then 64 else if n < 88 then 80
  else if n < 96 then 88 else if n < 104 then 96 else if n < 105 then 104 else 105

/-- How many of `n` bits, too few for the code of `u` and its sign bit, the decoder consumes: the unary
part bit by bit, then `b - 1` remainder bits in one read, then one bit (41_golomb.md R151, R155). -/
def codeCut (m u n : Nat) : Nat :=
  if n ≤ u / m then n else if n < u / m + codeBits m then u / m + 1 else n

/-- With `bs` left to read, decoding one code raises `e` after consuming `k` bits: the unary part or the
remainder takes the value past 2^32 - 1 (41_golomb.md R151), a SignMagnitude value is outside INT32
(R153), or the data ends inside the code or before its sign bit (R155). `scheme` is `none` for an
unsigned code. -/
def CodeFails (m : Nat) (scheme : Option Scheme) (bs : List Bool) (e : Raise) (k : Nat) : Prop :=
  (e = .codeOverflow ∧ 1 ≤ k ∧ (k - 1) * m ≤ 4294967295 ∧ 4294967295 < k * m ∧
    List.replicate k true <+: bs) ∨
  (e = .codeOverflow ∧ ∃ q r, r < m ∧ q * m ≤ 4294967295 ∧ 4294967295 < q * m + r ∧
    List.replicate q true ++ false :: remBits m r <+: bs ∧ k = q + 1 + (remBits m r).length) ∨
  (e = .valueRange ∧ scheme = some .signMagnitude ∧ ∃ (u : Nat) (neg : Bool), u ≤ 4294967295 ∧
    (if neg then 2147483648 < u else 2147483648 ≤ u) ∧ ucode m u ++ [neg] <+: bs ∧
    k = (ucode m u).length + 1) ∨
  (e = .endOfStream ∧ ∃ u, u ≤ 4294967295 ∧ bs <+: ucode m u ∧ bs.length < (ucode m u).length ∧
    k = codeCut m u bs.length) ∨
  (e = .endOfStream ∧ scheme = some .signMagnitude ∧ ∃ u, 1 ≤ u ∧ u ≤ 4294967295 ∧ bs = ucode m u ∧
    k = bs.length)

/-- Divisors a block may have: any legal ones, in static mode the header's (43_block_codec.md R230). -/
abbrev DivisorsOk (h : Header) (m0 m1 : Nat) : Prop :=
  1 ≤ m0 ∧ m0 ≤ 2147483647 ∧ 1 ≤ m1 ∧ m1 ≤ 2147483647 ∧
    (h.dynamic = 0 → m0 = h.staticM.toNat ∧ m1 = h.staticM.toNat)

/-- The parameter fields of a block (30_encoding.md R91). -/
def paramBits (h : Header) (m0 m1 : Nat) : List Bool :=
  if h.dynamic = 1 then binBits m0 32 ++ (if h.channels = 2 then binBits m1 32 else []) else []

/-- The codes of the first samples `xs` of a channel of a block of `len` frames (30_encoding.md R92,
43_block_codec.md R212). -/
def sampleCodes (h : Header) (len m : Nat) (xs : List Int) : List Bool :=
  (codedValues h.order.toNat (h.warmup len) xs).flatMap (scode m h.scheme)

/-- The sample that the decoded value `d` gives after the samples `xs` (43_block_codec.md R231). -/
def nextSample (h : Header) (len : Nat) (xs : List Int) (d : Int) : Int :=
  if xs.length < h.warmup len then d else predictFrom h.order.toNat xs.reverse + d

/-- `pre` is a block up to a code: its parameter fields and the codes of good samples, with `xs` the ones
of the channel at hand, `m` its divisor and `lo` to `hi` its range (43_block_codec.md R230 to R232). -/
def InBlock (h : Header) (len m0 m1 : Nat) (pre : List Bool) (m : Nat) (lo hi : Int)
    (xs : List Int) : Prop :=
  xs.length < len ∧ (∀ x ∈ xs, lo ≤ x ∧ x ≤ hi) ∧
  ((m = m0 ∧ lo = -32768 ∧ hi = 32767 ∧ pre = paramBits h m0 m1 ++ sampleCodes h len m0 xs) ∨
    (h.channels = 2 ∧ m = m1 ∧ lo = -65535 ∧ hi = 65535 ∧
      ∃ x0 : List Int, x0.length = len ∧ (∀ x ∈ x0, InInt16 x) ∧
        pre = paramBits h m0 m1 ++ sampleCodes h len m0 x0 ++ sampleCodes h len m1 xs))

end Sys2Proof.Claims

open Sys2Proof.Claims

/-! ### Encoding -/

/-- Decoding the word of a well-formed command gives the command back (30_encoding.md Part A). -/
def Obligations.DecodeInvertsEncode : Prop :=
  ∀ i : Instr, i.wf = true → decode (encode i) = .ok i

/-- Every word that decodes is the word of the command it decodes to, and that command is well-formed
(30_encoding.md Part A). -/
def Obligations.EncodeInvertsDecode : Prop :=
  ∀ (v : Word) (i : Instr), decode v = .ok i → i.wf = true ∧ encode i = v

/-- The words that decode are exactly those that a row of the match and mask table matches, and no word
matches two rows (30_encoding.md R84, last paragraph). -/
def Obligations.DecodableWordsMatchOneTableRow : Prop :=
  (∀ v : Word, (∃ i, decode v = .ok i) ↔ ∃ r ∈ opcodeTable, v &&& r.maskBits = r.matchBits) ∧
  (∀ v : Word, ∀ r ∈ opcodeTable, ∀ r' ∈ opcodeTable,
    v &&& r.maskBits = r.matchBits → v &&& r'.maskBits = r'.matchBits → r = r')

/-- R82: `OP = v[7:0]` selects the command, and a word whose OP is not in the map makes the command
raise UNDEFINED_OPCODE. -/
def Obligations.OpcodeSelectsTheCommandOrRaises : Prop :=
  (∀ (v : Word) (i : Instr), decode v = .ok i → opcodeOf i = opField v) ∧
  (∀ (s t : State) (v : Word), s.nextTurn = (.core, t) → t.cur = some v → ReservedOp (opField v) →
    step s = .next (t.raiseError .undefinedOpcode)) ∧
  (∀ v : Word, ¬ ReservedOp (opField v) → decode v ≠ .error .undefinedOpcode)

/-- R83: once OP is in the map, non-zero `v[31:14]`, or a non-zero `N` where the row says "N unused",
raises RESERVED_BITS; where the row says "N used", `N` is read as a number from 0 to 63. -/
def Obligations.ReservedBitsRaise : Prop :=
  (∀ (s t : State) (v : Word), s.nextTurn = (.core, t) → t.cur = some v → ¬ ReservedOp (opField v) →
    rsvdField v ≠ 0 ∨ (opField v ∉ countedOps ∧ nField v ≠ 0) →
    step s = .next (t.raiseError .reservedBits)) ∧
  (∀ v : Word, opField v ∈ countedOps → rsvdField v = 0 →
    ∃ i, decode v = .ok i ∧ i.fieldN = nField v ∧ nField v ≤ 63)

/-- Words written out from the opcode map decode to the commands they stand for (30_encoding.md R84;
95_test_vectors.md 2.9 and the programs). -/
def Obligations.SampleWordsDecode : Prop :=
  decode 0x00000000#32 = .ok .nop ∧ decode 0x00000010#32 = .ok .bcOpenWrite ∧
  decode 0x00000C12#32 = .ok (.bcWriteBits 12) ∧ decode 0x00000024#32 = .ok .grDecS ∧
  decode 0x00000330#32 = .ok (.lpPredict 3) ∧ decode 0x00000042#32 = .ok .blkDecodeNext ∧
  decode 0x00000052#32 = .ok .encodeFile ∧ decode 0x00000110#32 = .error .reservedBits ∧
  decode 0x00004000#32 = .error .reservedBits ∧ decode 0x00000002#32 = .error .undefinedOpcode

/-! ### Steps and the host -/

/-- A step is a turn of the host or of the core. On the core's turn a word in flight that decodes to `i`
makes the step `exec i`; with no word in flight the core keeps its state. `withFetchWord` puts a word in
flight so that the very next step is its `exec`. The order of turns is the model's (log 1). -/
def Obligations.StepRunsTheDecodedInstruction : Prop :=
  (∀ (s t : State) (v : Word) (i : Instr), s.nextTurn = (.core, t) → t.cur = some v →
    decode v = .ok i → step s = exec i t) ∧
  (∀ s t : State, s.nextTurn = (.core, t) → t.cur = none → step s = .next t) ∧
  (∀ (s t : State) (e : HostEvent), s.nextTurn = (.host e, t) → step s = hostMove e t) ∧
  (∀ s : State, s.sched = [] → s.nextTurn = (.core, s)) ∧
  (∀ (s : State) (t : Turn) (rest : List Turn), s.sched = t :: rest →
    s.nextTurn = (t, { s with sched := rest })) ∧
  (∀ (s : State) (nbits w : Nat) (i : Instr), decode (BitVec.ofNat 32 (w % 2 ^ nbits)) = .ok i →
    step (s.withFetchWord nbits w) = exec i (s.issue (BitVec.ofNat 32 (w % 2 ^ nbits))))

/-- R80: a write of CMD with BUSY = 0 puts the word in flight and clears DONE; with ERR = 1 only
0x00000001 is taken and any other word changes nothing. -/
def Obligations.CommandWriteIssuesOrIsDropped : Prop :=
  (∀ (s : State) (v : Word), s.cur = none → s.error = none →
    hostMove (.write 0x00 4 v) s = .next { s with cur := some v, done := false }) ∧
  (∀ (s : State) (e : Raise), s.cur = none → s.error = some e →
    hostMove (.write 0x00 4 0x00000001#32) s =
      .next { s with cur := some 0x00000001#32, done := false }) ∧
  (∀ (s : State) (e : Raise) (v : Word), s.cur = none → s.error = some e → v ≠ 0x00000001#32 →
    hostMove (.write 0x00 4 v) s = .next s)

/-- R63: with BUSY = 0, ARG registers take the word, configuration registers its low bits, read-only
registers ignore the write and CMD issues it; with BUSY = 1 a write of any register is refused. -/
def Obligations.RegisterWritesByKind : Prop :=
  (∀ (s : State) (v : Word), s.cur = none →
    hostMove (.write 0x08 4 v) s = .next { s with arg0 := v } ∧
    hostMove (.write 0x0C 4 v) s = .next { s with arg1 := v } ∧
    hostMove (.write 0x10 4 v) s = .next { s with arg2 := v } ∧
    hostMove (.write 0x30 4 v) s = .next { s with cfg := { s.cfg with sampleRate := v } } ∧
    hostMove (.write 0x34 4 v) s = .next { s with cfg := { s.cfg with totalFrames := v } } ∧
    hostMove (.write 0x38 4 v) s =
      .next { s with cfg := { s.cfg with blockSize := v.extractLsb' 0 16 } } ∧
    hostMove (.write 0x3C 4 v) s =
      .next { s with cfg := { s.cfg with channels := v.extractLsb' 0 8 } } ∧
    hostMove (.write 0x40 4 v) s = .next { s with cfg := { s.cfg with order := v.extractLsb' 0 8 } } ∧
    hostMove (.write 0x44 4 v) s = .next { s with cfg := { s.cfg with neg := v.extractLsb' 0 8 } } ∧
    hostMove (.write 0x48 4 v) s =
      .next { s with cfg := { s.cfg with dynamic := v.extractLsb' 0 1 } } ∧
    hostMove (.write 0x4C 4 v) s = .next { s with cfg := { s.cfg with staticM := v } } ∧
    (∀ off ∈ [0x04, 0x14, 0x18, 0x1C, 0x20, 0x24, 0x28, 0x2C],
      hostMove (.write off 4 v) s = .next s) ∧
    hostMove (.write 0x00 4 v) s =
      .next (if s.error.isSome = true ∧ v ≠ 0x00000001#32 then s
        else { s with cur := some v, done := false })) ∧
  (∀ (s : State) (k : Nat) (v : Word), s.cur.isSome = true → k < 20 →
    hostMove (.write (4 * k) 4 v) s = .refused .hostWriteWhileBusy)

/-- R61: with BUSY = 0 a read of a register of the map gives the host its current value, reserved bits
as 0 and CMD as 0, and changes nothing else. What the host saw is the model's field `seen` (log 3). -/
def Obligations.RegisterReadsReturnTheValue : Prop :=
  ∀ s : State, s.cur = none →
    ∀ p ∈ [(0x00, 0#32), (0x04, s.statusIdle), (0x08, s.arg0), (0x0C, s.arg1), (0x10, s.arg2),
      (0x14, s.res0), (0x18, s.res1), (0x1C, s.bc.stateWord), (0x20, s.bc.count),
      (0x24, BitVec.ofNat 32 s.framesDone), (0x28, s.grM),
      (0x2C, if s.grNeg = .zigZag then 0#32 else 1#32), (0x30, s.cfg.sampleRate),
      (0x34, s.cfg.totalFrames), (0x38, s.cfg.blockSize.zeroExtend 32),
      (0x3C, s.cfg.channels.zeroExtend 32), (0x40, s.cfg.order.zeroExtend 32),
      (0x44, s.cfg.neg.zeroExtend 32), (0x48, s.cfg.dynamic.zeroExtend 32), (0x4C, s.cfg.staticM)],
    hostMove (.read p.1 4) s = .next { s with seen := { s.seen with word := p.2 } }

/-- R62: an access with a size other than 4, an offset that is not a multiple of 4, or an offset outside
0x00 to 0x4F has no next state; any other register read has one. -/
def Obligations.AccessOutsideTheMapHasNoStep : Prop :=
  (∀ (s t : State) (off size : Nat) (v : Word), size ≠ 4 ∨ off % 4 ≠ 0 ∨ 0x50 ≤ off →
    hostMove (.read off size) s ≠ .next t ∧ hostMove (.write off size v) s ≠ .next t) ∧
  (∀ (s : State) (off : Nat), off % 4 = 0 → off < 0x50 → ∃ t, hostMove (.read off 4) s = .next t)

/-- The STATUS word's fields: BUSY, DONE, ERR, bit 3, ERRCODE, DETAIL, BCMODE, PHASE and bits 31:21 as it
reads while BUSY = 0, with the numbers of each (10_state.md R23 to R28, R33; 60_exceptions.md R306); and
while BUSY = 1 it reads with BUSY 1 and DONE, ERR, ERRCODE, DETAIL and the reserved bits 0, whatever BCMODE
and PHASE read as, and the read changes nothing of the core (20_memory.md R75; that BCMODE and PHASE are a
draw is the model's reading, log 3). The BC_STATE word's fields in each mode (10_state.md R31). -/
def Obligations.StatusFieldsHaveTheirPlaces : Prop :=
  (∀ s : State,
    (s.readReg .status).extractLsb' 0 1 = 0#1 ∧
    (s.readReg .status).getLsbD 1 = s.done ∧
    (s.readReg .status).getLsbD 2 = s.error.isSome ∧
    (s.readReg .status).getLsbD 3 = false ∧
    ((s.readReg .status).extractLsb' 4 4).toNat = s.errcode ∧
    ((s.readReg .status).extractLsb' 8 8).toNat = s.detail ∧
    (s.error = none → s.errcode = 0 ∧ s.detail = 0) ∧
    (∀ p ∈ errorTable, s.error = some p.1 → s.errcode = p.2.1 ∧ s.detail = p.2.2) ∧
    (∀ p ∈ modeTable, s.bc.mode = p.1 → ((s.readReg .status).extractLsb' 16 2).toNat = p.2) ∧
    (∀ p ∈ phaseTable, s.phase = p.1 → ((s.readReg .status).extractLsb' 18 3).toNat = p.2) ∧
    (s.readReg .status).extractLsb' 21 11 = 0#11) ∧
  (∀ s : State, s.cur.isSome = true →
    ∃ w : Word, w &&& 0xFFE0FFFF#32 = 1#32 ∧
      hostMove (.read 0x04 4) s =
        .next { s with seen := { s.seen with word := w }, draws := s.draws + 1 }) ∧
  (∀ s : State, s.bc.mode = .write →
    ((s.readReg .bcState).extractLsb' 0 3).toNat = s.bc.wpos.val ∧
    (s.readReg .bcState).extractLsb' 3 5 = 0#5 ∧
    (s.readReg .bcState).extractLsb' 8 8 = s.bc.wpend ∧
    (s.readReg .bcState).extractLsb' 16 16 = 0#16) ∧
  (∀ s : State, s.bc.mode = .read →
    ((s.readReg .bcState).extractLsb' 0 3).toNat = s.bc.rdpos % 8 ∧
    (s.readReg .bcState).extractLsb' 3 29 = 0#29) ∧
  (∀ s : State, s.bc.mode = .idle ∨ s.bc.mode = .closed → s.readReg .bcState = 0#32)

/-- No host step changes BYTE_IN while `bcmode = READ` nor PCM_IN in the phases of an encode run, nor
either while BUSY = 1, and the host can set each outside those windows (70_reset_and_hazards.md R353; that
the encode phases are the window, and that BUSY closes it, is DEDUCED, log 5). A look at BYTE_OUT or
PCM_OUT shows it while BUSY = 0, and some value while BUSY = 1, and changes nothing of the core
(20_memory.md R64, R68, R75, log 3). -/
def Obligations.InputsAreStableDuringUse : Prop :=
  (∀ (e : HostEvent) (s t : State), s.bc.mode = .read → hostMove e s = .next t →
    t.bc.byteIn = s.bc.byteIn) ∧
  (∀ (e : HostEvent) (s t : State), s.phase = .encBlocks ∨ s.phase = .encEnd → hostMove e s = .next t →
    t.pcmIn = s.pcmIn) ∧
  (∀ (e : HostEvent) (s t : State), s.cur.isSome = true → hostMove e s = .next t →
    t.bc.byteIn = s.bc.byteIn ∧ t.pcmIn = s.pcmIn) ∧
  (∀ (s t : State) (bs : List Byte), s.bc.mode = .read → hostMove (.supplyBytes bs) s ≠ .next t) ∧
  (∀ (s t : State) (xs : List Sample), s.phase = .encBlocks ∨ s.phase = .encEnd →
    hostMove (.supplySamples xs) s ≠ .next t) ∧
  (∀ (s : State) (bs : List Byte), s.cur = none → s.bc.mode ≠ .read →
    hostMove (.supplyBytes bs) s = .next { s with bc := { s.bc with byteIn := bs } }) ∧
  (∀ (s : State) (xs : List Sample), s.cur = none → s.phase ≠ .encBlocks → s.phase ≠ .encEnd →
    hostMove (.supplySamples xs) s = .next { s with pcmIn := xs }) ∧
  (∀ s : State, s.cur = none →
    hostMove .takeBytes s = .next { s with seen := { s.seen with bytes := s.bc.byteOut } } ∧
    hostMove .takeSamples s = .next { s with seen := { s.seen with samples := s.pcmOut } }) ∧
  (∀ s : State, s.cur.isSome = true →
    (∃ bs, hostMove .takeBytes s =
      .next { s with seen := { s.seen with bytes := bs }, draws := s.draws + 1 }) ∧
    (∃ xs, hostMove .takeSamples s =
      .next { s with seen := { s.seen with samples := xs }, draws := s.draws + 1 }))

/-! ### Errors and the ends of commands -/

/-- R313: error entry empties `cur`, clears BUSY and DONE, sets ERR and writes ERRCODE and DETAIL with
the twenty pairs of numbers of R306; nothing else is saved or changed. There is no other error, and
different errors have different codes. -/
def Obligations.ErrorEntryWritesStatusOnly : Prop :=
  (∀ (e : Raise) (s : State),
    s.raiseError e = { s with cur := none, done := false, error := some e } ∧
    (s.raiseError e).busy = false ∧ (s.raiseError e).err = true ∧
    (s.raiseError e).errcode = e.errcode ∧ (s.raiseError e).detail = e.detail) ∧
  (∀ p ∈ errorTable, ∀ s : State,
    (s.raiseError p.1).errcode = p.2.1 ∧ (s.raiseError p.1).detail = p.2.2) ∧
  (∀ e : Raise, ∃ p ∈ errorTable, p.1 = e) ∧
  (∀ e e' : Raise, e.errcode = e'.errcode → e.detail = e'.detail → e = e')

/-- R81: the step of a command (and of any word in flight) always terminates, and ends either in success, with `cur` empty, BUSY 0
and DONE 1, or in an error, with `cur` empty, BUSY 0, DONE 0 and an error recorded. Success leaves the
recorded error as it was, but for SOFT_RESET, which clears it and never raises. -/
def Obligations.CommandsEndInSuccessOrError : Prop :=
  (∀ (i : Instr) (s : State), ∃ t, exec i s = .next t ∧ t.cur = none ∧ t.busy = false ∧
    ((t.done = true ∧ t.error = if i = .softReset then none else s.error) ∨
      (t.done = false ∧ t.err = true ∧ i ≠ .softReset))) ∧
  (∀ (s t : State) (v : Word), s.nextTurn = (.core, t) → t.cur = some v →
    ∃ u, step s = .next u ∧ u.cur = none ∧ u.busy = false ∧
      (u.done = true ∨ (u.done = false ∧ ∃ e, u.error = some e)))

/-- Each command raises only the errors of its row (60_exceptions.md R307, which the spec derives). -/
def Obligations.CommandsRaiseOnlyTheirErrors : Prop :=
  ∀ (i : Instr) (s t : State) (e : Raise), s.error = none → exec i s = .next t →
    t.error = some e → e ∈ raisable i

/-- R314: while ERR = 1 the core drops every command word but 0x00000001, and a step keeps the recorded
error, unless it is the SOFT_RESET word's execution or hardware reset, after which none is recorded. -/
def Obligations.ErrorsAreStickyUntilReset : Prop :=
  (∀ (s : State) (e : Raise) (v : Word), s.cur = none → s.error = some e → v ≠ 0x00000001#32 →
    hostMove (.write 0x00 4 v) s = .next s) ∧
  (∀ (s t : State) (e : Raise), s.HandshakeInv → s.error = some e → step s = .next t →
    t.error = some e ∨
      (t.error = none ∧
        ((s.nextTurn.1 = .core ∧ s.cur = some 0x00000001#32) ∨
          s.nextTurn.1 = .host .hardReset)))

/-- The first three checks of a decoded command, in their order: the range of N, the phase, the
BitChannel mode (60_exceptions.md R308 steps 4 to 6; the phases are those of 44_container.md R258). Each
leaves the state as it was, but for the error entry. -/
def Obligations.GuardsRaiseInOrder : Prop :=
  (∀ (i : Instr) (s : State), rangeOk i = false → exec i s = .next (s.raiseError (rangeError i))) ∧
  (∀ (i : Instr) (s : State), rangeOk i = true → s.phase ∉ legalPhases i →
    exec i s = .next (s.raiseError .wrongPhase)) ∧
  (∀ (i : Instr) (s : State), rangeOk i = true → s.phase ∈ legalPhases i →
    s.bc.mode ∉ legalModes i → exec i s = .next (s.raiseError .wrongBcMode))

/-- The phase changes only by the rows of 44_container.md R258, for every single command; a whole-file
command that succeeds starts and ends in IDLE. -/
def Obligations.PhaseChangesOnlyByItsTable : Prop :=
  (∀ (i : Instr) (s t : State), i ≠ .encodeFile → i ≠ .decodeFile → exec i s = .next t →
    t.phase ≠ s.phase →
    (i = .hdrWrite ∧ s.phase = .idle ∧
      t.phase = (if s.cfg.totalFrames = 0 then .encEnd else .encBlocks)) ∨
    (i = .hdrRead ∧ s.phase = .idle ∧
      t.phase = (if t.hdr.totalFrames = 0 then .decEnd else .decBlocks)) ∨
    (i = .blkEncodeNext ∧ s.phase = .encBlocks ∧ t.phase = .encEnd ∧
      t.framesDone = t.hdr.totalFrames.toNat) ∨
    (i = .blkDecodeNext ∧ s.phase = .decBlocks ∧ t.phase = .decEnd ∧
      t.framesDone = t.hdr.totalFrames.toNat) ∨
    (i = .bcClose ∧ (s.phase = .encEnd ∨ s.phase = .decEnd) ∧ t.phase = .idle) ∨
    (i = .softReset ∧ t.phase = .idle)) ∧
  (∀ (i : Instr) (s t : State), i = .encodeFile ∨ i = .decodeFile → exec i s = .next t →
    t.done = true → s.phase = .idle ∧ t.phase = .idle)

/-! ### Reset and control -/

/-- R342: the reset value of every state element the table lists. -/
def Obligations.ResetValuesAreTheTable : Prop :=
  State.reset.cur = none ∧ State.reset.busy = false ∧ State.reset.done = false ∧
  State.reset.err = false ∧ State.reset.errcode = 0 ∧ State.reset.detail = 0 ∧
  State.reset.bc.mode = .idle ∧ State.reset.phase = .idle ∧
  State.reset.arg0 = 0 ∧ State.reset.arg1 = 0 ∧ State.reset.arg2 = 0 ∧
  State.reset.res0 = 0 ∧ State.reset.res1 = 0 ∧ State.reset.bc.stateWord = 0 ∧
  State.reset.bc.count = 0 ∧ State.reset.framesDone = 0 ∧ State.reset.grM = 0 ∧
  State.reset.grNeg = .zigZag ∧
  State.reset.cfg = { sampleRate := 0, totalFrames := 0, blockSize := 0, channels := 0, order := 0,
                      neg := 0, dynamic := 0, staticM := 0 } ∧
  State.reset.hdr = { sampleRate := 0, totalFrames := 0, blockSize := 0, channels := 0, order := 0,
                      neg := 0, dynamic := 0, staticM := 0 } ∧
  State.reset.hdrValid = false ∧ State.reset.bc.wpend = 0 ∧ State.reset.bc.wpos = 0 ∧
  State.reset.bc.rdpos = 0 ∧ State.reset.hist0 = [] ∧ State.reset.hist1 = [] ∧
  State.reset.bc.byteOut = [] ∧ State.reset.bc.durable = false ∧ State.reset.pcmOut = [] ∧
  State.reset.readReg .status = 0x00000000#32

/-- Hardware reset at any time gives the reset state, with the host's inputs BYTE_IN and PCM_IN and the
model's own fields kept, and ends a command in flight (70_reset_and_hazards.md R340; that the inputs stay
is the model's reading, DEDUCED, log 6). -/
def Obligations.HardwareResetGivesTheResetState : Prop :=
  ∀ s : State, hostMove .hardReset s = .next
    { State.reset with
      bc := { State.reset.bc with byteIn := s.bc.byteIn }
      pcmIn := s.pcmIn, sched := s.sched, ioAnswers := s.ioAnswers, draws := s.draws,
      seen := s.seen }

/-- R341: SOFT_RESET sets every element to its reset value except the five host streams, which it leaves,
and completes with DONE = 1. (The model's own fields stay as well.) -/
def Obligations.SoftResetKeepsTheHostStreams : Prop :=
  ∀ s : State, exec .softReset s = .next
    { State.reset with
      done := true
      bc := { State.reset.bc with
        byteOut := s.bc.byteOut, durable := s.bc.durable, byteIn := s.bc.byteIn }
      pcmIn := s.pcmIn, pcmOut := s.pcmOut, sched := s.sched, ioAnswers := s.ioAnswers,
      draws := s.draws, seen := s.seen }

/-- NOP completes in every phase and mode and changes nothing but DONE and the command in flight
(45_control.md R280). -/
def Obligations.NopOnlyCompletes : Prop :=
  ∀ s : State, exec .nop s = .next { s with cur := none, done := true }

/-! ### BitChannel -/

/-- R122 and R123, whole: the phase guard, the mode guard, the IO draw, and the new writer or reader. -/
def Obligations.OpenCommandsStartAnInstance : Prop :=
  (∀ i ∈ [Instr.bcOpenWrite, Instr.bcOpenRead], ∀ s : State,
    (s.phase ≠ .idle → exec i s = .next (s.raiseError .wrongPhase)) ∧
    (s.phase = .idle → s.bc.mode = .write ∨ s.bc.mode = .read →
      exec i s = .next (s.raiseError .wrongBcMode)) ∧
    (s.phase = .idle → s.bc.mode = .idle ∨ s.bc.mode = .closed → s.ioOk = false →
      exec i s = .next (s.afterDraw.raiseError .openFailed))) ∧
  (∀ s : State, s.phase = .idle → s.bc.mode = .idle ∨ s.bc.mode = .closed → s.ioOk = true →
    exec .bcOpenWrite s = .next { s.afterDraw.succeed with
      bc := { s.bc with byteOut := [], durable := false, wpend := 0, wpos := 0, count := 0,
                        mode := .write } } ∧
    exec .bcOpenRead s = .next { s.afterDraw.succeed with
      bc := { s.bc with rdpos := 0, count := 0, mode := .read } })

/-- R130 and R131, whole: the checks in their order, and on success the low `N` bits of ARG0, most
significant first, or the bit ARG0[0], written to the BitChannel; nothing else changes. -/
def Obligations.WriteCommandsPutTheirBits : Prop :=
  (∀ (n : Nat) (s : State), 32 < n → exec (.bcWriteBits n) s = .next (s.raiseError .badBitCount)) ∧
  (∀ (n : Nat) (s : State), n ≤ 32 → ∀ i ∈ [Instr.bcWriteBits n, Instr.bcWriteBit],
    (s.phase ≠ .idle → exec i s = .next (s.raiseError .wrongPhase)) ∧
    (s.phase = .idle → s.bc.mode ≠ .write → exec i s = .next (s.raiseError .wrongBcMode))) ∧
  (∀ (n : Nat) (s : State), n ≤ 32 → s.phase = .idle → s.bc.mode = .write →
    exec (.bcWriteBits n) s = .next { s.succeed with bc := s.bc.putBits (binBits s.arg0.toNat n) }) ∧
  (∀ s : State, s.phase = .idle → s.bc.mode = .write →
    exec .bcWriteBit s = .next { s.succeed with bc := s.bc.putBits [s.arg0.getLsbD 0] })

/-- R132 and R133, whole: the checks in their order; END_OF_STREAM with nothing consumed when too few
bits remain; else RES0 is the value of the next bits of BYTE_IN, first bit most significant, and exactly
those bits are consumed; nothing else changes. -/
def Obligations.ReadCommandsReturnTheNextBits : Prop :=
  (∀ (n : Nat) (s : State), 32 < n → exec (.bcReadBits n) s = .next (s.raiseError .badBitCount)) ∧
  (∀ (n : Nat) (s : State), n ≤ 32 → ∀ i ∈ [Instr.bcReadBits n, Instr.bcReadBit],
    (s.phase ≠ .idle → exec i s = .next (s.raiseError .wrongPhase)) ∧
    (s.phase = .idle → s.bc.mode ≠ .read → exec i s = .next (s.raiseError .wrongBcMode))) ∧
  (∀ (n : Nat) (s : State), n ≤ 32 → s.phase = .idle → s.bc.mode = .read →
    s.bc.unread.length < n → exec (.bcReadBits n) s = .next (s.raiseError .endOfStream)) ∧
  (∀ s : State, s.phase = .idle → s.bc.mode = .read → s.bc.unread = [] →
    exec .bcReadBit s = .next (s.raiseError .endOfStream)) ∧
  (∀ (n v : Nat) (s : State), n ≤ 32 → s.phase = .idle → s.bc.mode = .read → v < 2 ^ n →
    binBits v n <+: s.bc.unread →
    exec (.bcReadBits n) s = .next { s.succeed with
      res0 := BitVec.ofNat 32 v
      bc := { s.bc with rdpos := s.bc.rdpos + n, count := BitVec.ofNat 32 ((s.bc.rdpos + n) / 8) } }) ∧
  (∀ (x : Bool) (s : State), s.phase = .idle → s.bc.mode = .read → [x] <+: s.bc.unread →
    exec .bcReadBit s = .next { s.succeed with
      res0 := BitVec.ofNat 32 x.toNat
      bc := { s.bc with rdpos := s.bc.rdpos + 1, count := BitVec.ofNat 32 ((s.bc.rdpos + 1) / 8) } })

/-- R129, whole: the two guards; a reader closes with no draw; a writer flushes its pending byte, takes
the durability draw, and is durable and CLOSED in phase IDLE, or raises CLOSE_FAILED with the flushed
byte kept. -/
def Obligations.CloseFlushesAndReleases : Prop :=
  (∀ s : State, s.phase = .encBlocks ∨ s.phase = .decBlocks →
    exec .bcClose s = .next (s.raiseError .wrongPhase)) ∧
  (∀ s : State, s.phase ≠ .encBlocks → s.phase ≠ .decBlocks → s.bc.mode = .idle ∨ s.bc.mode = .closed →
    exec .bcClose s = .next (s.raiseError .wrongBcMode)) ∧
  (∀ s : State, s.phase ≠ .encBlocks → s.phase ≠ .decBlocks → s.bc.mode = .read →
    exec .bcClose s = .next { s.succeed with bc := { s.bc with mode := .closed }, phase := .idle }) ∧
  (∀ s : State, s.phase ≠ .encBlocks → s.phase ≠ .decBlocks → s.bc.mode = .write →
    (s.ioOk = false →
      exec .bcClose s = .next ({ s.afterDraw with bc := s.bc.flush }.raiseError .closeFailed)) ∧
    (s.ioOk = true →
      exec .bcClose s = .next { s.afterDraw.succeed with
        bc := { s.bc.flush with durable := true, mode := .closed }, phase := .idle })) ∧
  (∀ b : BitChannel, b.wpos = 0 → b.flush = b) ∧
  (∀ b : BitChannel, b.wpos ≠ 0 →
    b.flush = { b with byteOut := b.byteOut ++ [b.wpend], count := b.count + 1, wpend := 0, wpos := 0 })

/-- R125 with the bit order of R69: `WriteBits(v, n)` appends the `n` low bits of `v`, most significant
first, to the bits written, and moves neither the reader nor the mode. -/
def Obligations.WriteBitsAppendsToTheStream : Prop :=
  ∀ (v n : Nat) (b : BitChannel), PendingClean b →
    (b.writeBits v n).written = b.written ++ binBits v n ∧ PendingClean (b.writeBits v n) ∧
    (b.writeBits v n).mode = b.mode ∧ (b.writeBits v n).rdpos = b.rdpos ∧
    (b.writeBits v n).byteIn = b.byteIn ∧ (b.writeBits v n).durable = b.durable

/-- A flushed writer holds exactly the bits written, in whole bytes, the last padded with zeros:
`⌈t/8⌉` bytes for `t` bits (40_bitchannel.md R135, which the spec derives). -/
def Obligations.FlushedStreamIsThePaddedBits : Prop :=
  ∀ b : BitChannel, PendingClean b →
    b.flush.byteOut = packBits b.written ∧ b.flush.byteOut.length = (b.written.length + 7) / 8 ∧
    (streamOf b.flush.byteOut).take b.written.length = b.written ∧
    ∀ x ∈ (streamOf b.flush.byteOut).drop b.written.length, x = false

/-! ### Golomb-Rice coder -/

/-- R95: `b(m)` is the least `b` with `2^b ≥ m`, and `cutoff = 2^b - m`, which is below `2^(b-1)` when
`b ≥ 1` and 0 exactly for powers of two. -/
def Obligations.CodeParametersAreLeast : Prop :=
  ∀ m : Nat, 1 ≤ m →
    m ≤ 2 ^ codeBits m ∧ (∀ b, m ≤ 2 ^ b → codeBits m ≤ b) ∧
    cutoff m + m = 2 ^ codeBits m ∧
    (1 ≤ codeBits m → cutoff m < 2 ^ (codeBits m - 1)) ∧
    (cutoff m = 0 ↔ ∃ k, m = 2 ^ k) ∧
    codeBits 1 = 0 ∧ codeBits 2 = 1 ∧ codeBits 3 = 2 ∧ codeBits 4 = 2 ∧ codeBits 5 = 3 ∧
    codeBits 6 = 3 ∧ codeBits 7 = 3 ∧ codeBits 8 = 3

/-- R98: on INT32 the ZigZag map is `u32(n << 1) XOR u32(n >>a 31)`, and with its inverse it is a
bijection between INT32 and UINT32. -/
def Obligations.ZigZagIsTheXorFormAndABijection : Prop :=
  (∀ n : Int, 0 ≤ n → (zz n : Int) = 2 * n) ∧ (∀ n : Int, n < 0 → (zz n : Int) = -2 * n - 1) ∧
  (∀ n : Int, InInt32 n →
    BitVec.ofNat 32 (zz n) = BitVec.ofInt 32 (n * 2) ^^^ BitVec.ofInt 32 (n / 2147483648) ∧
    zz n ≤ 4294967295 ∧ unzz (zz n) = n) ∧
  (∀ u : Nat, u ≤ 4294967295 → InInt32 (unzz u) ∧ zz (unzz u) = u) ∧
  (∀ u : Nat, u % 2 = 0 → 2 * unzz u = u) ∧ (∀ u : Nat, u % 2 = 1 → 2 * unzz u = -((u : Int) + 1))

/-- R160, whole: BAD_M first, then BAD_NEG, else GR_M and GR_NEG take the operands; legal in every phase
and mode. -/
def Obligations.GrConfigConstructsTheCoder : Prop :=
  (∀ s : State, s.arg0.toInt ≤ 0 → exec .grConfig s = .next (s.raiseError .badM)) ∧
  (∀ s : State, 0 < s.arg0.toInt → 1 < s.arg1.toNat →
    exec .grConfig s = .next (s.raiseError .badNeg)) ∧
  (∀ s : State, 0 < s.arg0.toInt → s.arg1 = 0#32 →
    exec .grConfig s = .next { s.succeed with grM := s.arg0, grNeg := .zigZag }) ∧
  (∀ s : State, 0 < s.arg0.toInt → s.arg1 = 1#32 →
    exec .grConfig s = .next { s.succeed with grM := s.arg0, grNeg := .signMagnitude })

/-- R156: the guards of the four coding commands, in their order. -/
def Obligations.CoderGuardsInOrder : Prop :=
  ∀ p ∈ [(Instr.grEncU, BcMode.write), (Instr.grDecU, BcMode.read), (Instr.grEncS, BcMode.write),
      (Instr.grDecS, BcMode.read)], ∀ s : State,
    (s.phase ≠ .idle → exec p.1 s = .next (s.raiseError .wrongPhase)) ∧
    (s.phase = .idle → s.bc.mode ≠ p.2 → exec p.1 s = .next (s.raiseError .wrongBcMode)) ∧
    (s.phase = .idle → s.bc.mode = p.2 → s.grM.toInt ≤ 0 → exec p.1 s = .next (s.raiseError .badM))

/-- GR_ENC_U and GR_ENC_S write exactly the code word of their operand under GR_M and GR_NEG
(41_golomb.md R150, R152, R161, R163; the word is that of 30_encoding.md R96, R100) and nothing else
changes. -/
def Obligations.EncodersWriteTheCodeWord : Prop :=
  ∀ s : State, s.phase = .idle → s.bc.mode = .write → 0 < s.grM.toInt →
    exec .grEncU s = .next { s.succeed with bc := s.bc.putBits (ucode s.grM.toNat s.arg0.toNat) } ∧
    exec .grEncS s =
      .next { s.succeed with bc := s.bc.putBits (scode s.grM.toNat s.grNeg s.arg0.toInt) }

/-- GR_DEC_U and GR_DEC_S invert the encoders: with a code word at the reader's position, whatever
follows it, RES0 is the value and exactly the word is consumed; nothing else changes (41_golomb.md R151,
R153, R162, R164, and R154, which the spec derives). -/
def Obligations.DecodersInvertTheCodeWord : Prop :=
  (∀ (s : State) (u : Nat), s.phase = .idle → s.bc.mode = .read → 0 < s.grM.toInt →
    u ≤ 4294967295 → ucode s.grM.toNat u <+: s.bc.unread →
    exec .grDecU s = .next { s.succeed with
      res0 := BitVec.ofNat 32 u, bc := s.bc.advance (ucode s.grM.toNat u).length }) ∧
  (∀ (s : State) (n : Int), s.phase = .idle → s.bc.mode = .read → 0 < s.grM.toInt →
    InInt32 n → scode s.grM.toNat s.grNeg n <+: s.bc.unread →
    exec .grDecS s = .next { s.succeed with
      res0 := BitVec.ofInt 32 n, bc := s.bc.advance (scode s.grM.toNat s.grNeg n).length })

/-- A unary part whose value passes 2^32 - 1 raises CODE_OVERFLOW right after the one-bit that does it;
and so does every other code that fails: GR_DEC_U and GR_DEC_S raise CODE_OVERFLOW after the remainder,
VALUE_RANGE after the sign bit (GR_DEC_S), and END_OF_STREAM inside a code, with the bits read consumed and
nothing else changed (41_golomb.md R151, R153, R155, R162, R164). -/
def Obligations.UnaryOverflowRaisesAtOnce : Prop :=
  (∀ (s : State) (q : Nat), s.phase = .idle → s.bc.mode = .read → 0 < s.grM.toInt →
    1 ≤ q → (q - 1) * s.grM.toNat ≤ 4294967295 → 4294967295 < q * s.grM.toNat →
    List.replicate q true <+: s.bc.unread →
    ∀ i ∈ [Instr.grDecU, Instr.grDecS],
      exec i s = .next ({ s with bc := s.bc.advance q }.raiseError .codeOverflow)) ∧
  (∀ (s : State) (e : Raise) (k : Nat), s.phase = .idle → s.bc.mode = .read → 0 < s.grM.toInt →
    (CodeFails s.grM.toNat none s.bc.unread e k → exec .grDecU s = .next (failAt k e s)) ∧
    (CodeFails s.grM.toNat (some s.grNeg) s.bc.unread e k → exec .grDecS s = .next (failAt k e s)))

/-! ### Predictor and stereo -/

/-- R190 and R191: BAD_ORDER for N above 3, else RES0 is the prediction reduced modulo 2^32; legal in
every phase and mode, and nothing else changes. -/
def Obligations.LpPredictComputesThePrediction : Prop :=
  (∀ (n : Nat) (s : State), 3 < n → exec (.lpPredict n) s = .next (s.raiseError .badOrder)) ∧
  (∀ s : State,
    exec (.lpPredict 0) s = .next { s.succeed with res0 := 0#32 } ∧
    exec (.lpPredict 1) s = .next { s.succeed with res0 := s.arg0 } ∧
    exec (.lpPredict 2) s = .next { s.succeed with
      res0 := BitVec.ofInt 32 (2 * s.arg0.toInt - s.arg1.toInt) } ∧
    exec (.lpPredict 3) s = .next { s.succeed with
      res0 := BitVec.ofInt 32 (3 * s.arg0.toInt - 3 * s.arg1.toInt + s.arg2.toInt) })

/-- R194 and R195 with R192 and R193: SD_TO_MS and SD_TO_LR compute over the integers, rounding toward
negative infinity, and reduce the results modulo 2^32; nothing else changes. -/
def Obligations.StereoCommandsComputeTheTransforms : Prop :=
  ∀ s : State,
    exec .sdToMs s = .next { s.succeed with
      res0 := BitVec.ofInt 32
        (((s.arg0.extractLsb' 0 16).toInt + (s.arg1.extractLsb' 0 16).toInt) / 2)
      res1 := BitVec.ofInt 32
        ((s.arg0.extractLsb' 0 16).toInt - (s.arg1.extractLsb' 0 16).toInt) } ∧
    exec .sdToLr s = .next { s.succeed with
      res0 := BitVec.ofInt 32 (s.arg0.toInt + (s.arg1.toInt + 1) / 2)
      res1 := BitVec.ofInt 32 (s.arg0.toInt - s.arg1.toInt / 2) }

/-- The stereo transform and its inverse are inverse bijections of pairs of integers
(42_predictor_stereo.md R196, which the spec derives). -/
def Obligations.StereoTransformIsInvertible : Prop :=
  (∀ l r : Int, toLeftRight (toMidSide l r).1 (toMidSide l r).2 = (l, r)) ∧
  (∀ mid side : Int, toMidSide (toLeftRight mid side).1 (toLeftRight mid side).2 = (mid, side))

/-- The ranges of mid and side, and the bounds of predictions and residuals that keep every residual of
the encoder in INT32 (42_predictor_stereo.md R197, R199, which the spec derives). -/
def Obligations.ResidualsAreBounded : Prop :=
  (∀ l r : Int, InInt16 l → InInt16 r →
    InInt16 (toMidSide l r).1 ∧ |(toMidSide l r).2| ≤ 65535) ∧
  (∀ (order : Nat) (a s s1 s2 s3 : Int), order ≤ 3 → |s| ≤ a → |s1| ≤ a → |s2| ≤ a → |s3| ≤ a →
    |predict order s1 s2 s3| ≤ 7 * a ∧ |s - predict order s1 s2 s3| ≤ 8 * a) ∧
  (∀ s s1 s2 s3 : Int, InInt16 s → InInt16 s1 → InInt16 s2 → InInt16 s3 →
    -229373 ≤ predict 3 s1 s2 s3 ∧ predict 3 s1 s2 s3 ≤ 229372 ∧
    |s - predict 3 s1 s2 s3| ≤ 262140)

/-! ### Estimator -/

/-- R214: `Estimate(S, C)` is 1 for `C = 0`, and else `max(⌈-1/ln(alpha)⌉, 1)` for the mean's `alpha`
clamped to [0.001, 0.999], every step exact over the reals; and it is the least `k ≥ 1` with
`e ≤ ((S + C)/S)^k`, equivalently with `S/C ≤ T_k`, capped at 1000. -/
def Obligations.EstimatorIsTheExactFormula : Prop :=
  (∀ S : Nat, estimate S 0 = 1) ∧
  (∀ S C : Nat, 0 < C →
    (estimate S C : ℤ) =
      max ⌈-1 / Real.log (min (max (((S : ℝ) / C) / ((S : ℝ) / C + 1)) (1 / 1000)) (999 / 1000))⌉ 1) ∧
  (∀ C : Nat, estimate 0 C = 1) ∧
  (∀ S C : Nat, 0 < S → 0 < C →
    IsLeast {k : Nat | 1 ≤ k ∧ (k = 1000 ∨ Real.exp 1 ≤ (((S : ℝ) + C) / S) ^ k)} (estimate S C)) ∧
  (∀ S C k : Nat, 0 < C → 1 ≤ k → k < 1000 →
    (estimate S C ≤ k ↔ (S : ℝ) / C ≤ 1 / (Real.exp (1 / k) - 1)))

/-- The estimate is from 1 to 1000, does not fall as `S` grows, and is 1 exactly when `C = 0` or
`S/C ≤ T_1 = 1/(e - 1)` (43_block_codec.md R215, which the spec derives). -/
def Obligations.EstimateRangeAndGrowth : Prop :=
  (∀ S C : Nat, 1 ≤ estimate S C ∧ estimate S C ≤ 1000) ∧
  (∀ S S' C : Nat, S ≤ S' → estimate S C ≤ estimate S' C) ∧
  (∀ S C : Nat, estimate S C = 1 ↔ C = 0 ∨ (S : ℝ) * (Real.exp 1 - 1) ≤ C)

/-- R220: BLK_ESTIMATE gives `Estimate(ARG1·2^32 + ARG0, ARG2)` in RES0, in every phase and mode, and
changes nothing else; with the rule's own examples. -/
def Obligations.BlkEstimateReturnsTheEstimate : Prop :=
  (∀ s : State, exec .blkEstimate s = .next { s.succeed with
    res0 := BitVec.ofNat 32 (estimate (s.arg1.toNat * 2 ^ 32 + s.arg0.toNat) s.arg2.toNat) }) ∧
  (∀ S : Nat, estimate S 0 = 1) ∧ (∀ C : Nat, estimate 0 C = 1) ∧
  estimate 5 10 = 1 ∧ estimate 6 10 = 2 ∧ estimate 15 10 = 2 ∧ estimate 16 10 = 3 ∧
  estimate 100 10 = 11 ∧ estimate 999 1 = 1000

/-! ### Block codec -/

/-- BLK_ENCODE_NEXT writes the bits of the next block as the stream grammar has them, appends the block's
channels to the history, counts its frames, and ends the run when all are done; nothing else changes
(43_block_codec.md R210 to R213, R217 to R219, R235; 30_encoding.md R88, R91, R92). -/
def Obligations.BlkEncodeNextWritesTheBlock : Prop :=
  ∀ s : State, s.phase = .encBlocks → s.bc.mode = .write →
    exec .blkEncodeNext s = .next { s.succeed with
      bc := s.bc.putBits (s.hdr.encodedBlockBits s.pcmIn s.framesDone)
      hist0 := s.hist0 ++
        (s.hdr.channelSamples s.pcmIn s.framesDone (s.hdr.blockLen s.framesDone)).1
      hist1 := s.hist1 ++
        (s.hdr.channelSamples s.pcmIn s.framesDone (s.hdr.blockLen s.framesDone)).2
      framesDone := s.framesDone + s.hdr.blockLen s.framesDone
      phase := if s.framesDone + s.hdr.blockLen s.framesDone = s.hdr.totalFrames.toNat then .encEnd
        else .encBlocks }

/-- BLK_DECODE_NEXT inverts the block: when the next bits are a block of 16-bit samples under any legal
divisors, it consumes exactly them, appends the samples to PCM_OUT, L before R, and the channels to the
history, counts the frames, and ends the run when all are done; nothing else changes
(43_block_codec.md R230 to R236, R238). -/
def Obligations.BlkDecodeNextInvertsTheBlock : Prop :=
  ∀ (s : State) (pcm : List Sample) (m0 m1 : Nat),
    s.phase = .decBlocks → s.bc.mode = .read → s.hdr.Legal →
    s.framesDone < s.hdr.totalFrames.toNat →
    pcm.length = s.hdr.channels.toNat * s.hdr.blockLen s.framesDone →
    1 ≤ m0 → m0 ≤ 2147483647 → 1 ≤ m1 → m1 ≤ 2147483647 →
    (s.hdr.dynamic = 0 → m0 = s.hdr.staticM.toNat ∧ m1 = s.hdr.staticM.toNat) →
    s.hdr.blockBits m0 m1 (s.hdr.channelSamples pcm 0 (s.hdr.blockLen s.framesDone)).1
        (s.hdr.channelSamples pcm 0 (s.hdr.blockLen s.framesDone)).2 <+: s.bc.unread →
    exec .blkDecodeNext s = .next { s.succeed with
      bc := s.bc.advance
        (s.hdr.blockBits m0 m1 (s.hdr.channelSamples pcm 0 (s.hdr.blockLen s.framesDone)).1
          (s.hdr.channelSamples pcm 0 (s.hdr.blockLen s.framesDone)).2).length
      pcmOut := s.pcmOut ++ pcm
      hist0 := s.hist0 ++ (s.hdr.channelSamples pcm 0 (s.hdr.blockLen s.framesDone)).1
      hist1 := s.hist1 ++ (s.hdr.channelSamples pcm 0 (s.hdr.blockLen s.framesDone)).2
      framesDone := s.framesDone + s.hdr.blockLen s.framesDone
      phase := if s.framesDone + s.hdr.blockLen s.framesDone = s.hdr.totalFrames.toNat then .decEnd
        else .decBlocks }

/-- A command that reads the stream and raises changes nothing but the status and the reader's cursor and
byte count. The cursor never moves back nor past the end, and the count is `rdpos div 8` when it moved and
as before when it did not: PCM_OUT, the history, FRAMES_DONE, the phase, HDR, CFG and the results stay
(60_exceptions.md R315; 40_bitchannel.md R127; 43_block_codec.md R234, R238; 44_container.md R255). -/
def Obligations.FailedReadsMoveOnlyTheCursor : Prop :=
  ∀ (i : Instr) (s t : State), readsStream i = true → exec i s = .next t → t.done = false →
    ∃ (e : Raise) (r : Nat), s.bc.rdpos ≤ r ∧
      (s.bc.rdpos ≤ 8 * s.bc.byteIn.length → r ≤ 8 * s.bc.byteIn.length) ∧
      t = { s with cur := none, done := false, error := some e,
                   bc := { s.bc with
                     rdpos := r
                     count := if r = s.bc.rdpos then s.bc.count else BitVec.ofNat 32 (r / 8) } }

/-! ### Container -/

/-- R250: the checks of `ValidateCfg()` in their order, each raising before anything is written, for
HDR_WRITE and for ENCODE_FILE, which validates before any I/O. -/
def Obligations.ConfigurationIsCheckedInOrder : Prop :=
  ∀ (i : Instr) (s : State), StartsEncoding i s →
    (s.cfg.blockSize = 0 → exec i s = .next (s.raiseError .badBlockSize)) ∧
    (s.cfg.blockSize ≠ 0 → s.cfg.channels ≠ 1 → s.cfg.channels ≠ 2 →
      exec i s = .next (s.raiseError .badChannels)) ∧
    (s.cfg.blockSize ≠ 0 → s.cfg.channels = 1 ∨ s.cfg.channels = 2 → 3 < s.cfg.order.toNat →
      exec i s = .next (s.raiseError .badOrder)) ∧
    (s.cfg.blockSize ≠ 0 → s.cfg.channels = 1 ∨ s.cfg.channels = 2 → s.cfg.order.toNat ≤ 3 →
      1 < s.cfg.neg.toNat → exec i s = .next (s.raiseError .badNeg)) ∧
    (s.cfg.blockSize ≠ 0 → s.cfg.channels = 1 ∨ s.cfg.channels = 2 → s.cfg.order.toNat ≤ 3 →
      s.cfg.neg.toNat ≤ 1 → s.cfg.dynamic = 0 → s.cfg.staticM.toInt ≤ 0 →
      exec i s = .next (s.raiseError .badM)) ∧
    (s.cfg.Legal → s.pcmIn.length ≠ s.cfg.channels.toNat * s.cfg.totalFrames.toNat →
      exec i s = .next (s.raiseError .pcmLength))

/-- HDR_WRITE with a legal configuration latches CFG, writes the header's 105 or 137 bits after the bits
already written, clears the progress, and enters ENC_BLOCKS, or ENC_END for an empty file; nothing else
changes (44_container.md R251, R252, R259; 30_encoding.md R89). -/
def Obligations.HdrWriteStartsTheRun : Prop :=
  (∀ s : State, s.phase = .idle → s.bc.mode = .write → ConfigOk s →
    exec .hdrWrite s = .next { s.succeed with
      hdr := s.cfg, hdrValid := true, bc := s.bc.putBits s.cfg.bits, framesDone := 0, hist0 := [],
      hist1 := [], phase := if s.cfg.totalFrames = 0 then .encEnd else .encBlocks }) ∧
  (∀ h : Header, h.bits.length = if h.dynamic = 1 then 105 else 137)

/-- HDR_READ with a legal header at the reader's position latches it, copies it into CFG (with
CFG_STATIC_M 0 in dynamic mode), consumes exactly its bits, empties PCM_OUT, clears the progress, and
enters DEC_BLOCKS, or DEC_END for an empty file; nothing else changes. A whole header with a bad field raises
BAD_HEADER, then a static divisor that is not positive BAD_PARAM, and a header that the data ends in
UNEXPECTED_EOS, each with the fields read consumed and nothing else changed (44_container.md R253 to R255,
R259). -/
def Obligations.HdrReadStartsTheRun : Prop :=
  (∀ (s : State) (h : Header), s.phase = .idle → s.bc.mode = .read → h.Legal →
    h.bits <+: s.bc.unread →
    exec .hdrRead s = .next { s.succeed with
      hdr := decodedForm h, hdrValid := true, cfg := decodedForm h,
      bc := s.bc.advance h.bits.length, pcmOut := [], framesDone := 0, hist0 := [], hist1 := [],
      phase := if h.totalFrames = 0 then .decEnd else .decBlocks }) ∧
  (∀ (s : State) (h : Header), s.phase = .idle → s.bc.mode = .read → h.bits <+: s.bc.unread →
    (h.blockSize = 0 ∨ (h.channels ≠ 1 ∧ h.channels ≠ 2) ∨ 3 < h.order.toNat ∨ 1 < h.neg.toNat →
      exec .hdrRead s = .next (failAt h.bits.length .badHeader s)) ∧
    (h.blockSize ≠ 0 → h.channels = 1 ∨ h.channels = 2 → h.order.toNat ≤ 3 → h.neg.toNat ≤ 1 →
      h.dynamic = 0 → h.staticM.toInt ≤ 0 →
      exec .hdrRead s = .next (failAt h.bits.length .badParam s))) ∧
  (∀ s : State, s.phase = .idle → s.bc.mode = .read →
    s.bc.unread.length < 105 ∨
      (s.bc.unread.length < 137 ∧ s.bc.unread.getD 104 true = false) →
    exec .hdrRead s = .next (failAt (headerCut s.bc.unread.length) .unexpectedEos s))

/-- ENCODE_FILE with a legal configuration and both IO draws true ends CLOSED and IDLE with `durable` 1,
and BYTE_OUT is the whole stream of the grammar, zero-padded to bytes; registers that its rule does not
name stay (44_container.md R256; 30_encoding.md R88, R90). -/
def Obligations.EncodeFileWritesTheStream : Prop :=
  ∀ s : State, s.phase = .idle → s.bc.mode = .idle ∨ s.bc.mode = .closed → ConfigOk s →
    s.ioOk = true → s.afterDraw.ioOk = true →
    ∃ h0 h1 : List Int, h0.length = s.cfg.totalFrames.toNat ∧
      exec .encodeFile s = .next { s.afterDraw.afterDraw.succeed with
        hdr := s.cfg, hdrValid := true, framesDone := s.cfg.totalFrames.toNat, hist0 := h0,
        hist1 := h1, phase := .idle
        bc := { s.bc with
          mode := .closed, wpend := 0, wpos := 0, durable := true
          byteOut := packBits (s.cfg.fileBits s.pcmIn)
          count := BitVec.ofNat 32 (packBits (s.cfg.fileBits s.pcmIn)).length } }

/-- The IO failures of the whole-file commands: a failed open changes nothing but the draw and the
status; a failed close leaves the whole padded stream in BYTE_OUT with `durable` 0, WRITE mode and phase
ENC_END (44_container.md R256, R257; 60_exceptions.md R315). -/
def Obligations.FileCommandsReportIoFailures : Prop :=
  (∀ s : State, s.phase = .idle → s.bc.mode = .idle ∨ s.bc.mode = .closed → s.ioOk = false →
    (ConfigOk s → exec .encodeFile s = .next (s.afterDraw.raiseError .openFailed)) ∧
    exec .decodeFile s = .next (s.afterDraw.raiseError .openFailed)) ∧
  (∀ s : State, s.phase = .idle → s.bc.mode = .idle ∨ s.bc.mode = .closed → ConfigOk s →
    s.ioOk = true → s.afterDraw.ioOk = false →
    ∃ t, exec .encodeFile s = .next t ∧ t.error = some .closeFailed ∧ t.done = false ∧
      t.bc.mode = .write ∧ t.bc.durable = false ∧ t.phase = .encEnd ∧
      t.bc.byteOut = packBits (s.cfg.fileBits s.pcmIn))

/-- DECODE_FILE of a stream of the grammar, followed by any bytes, gives back its samples and its header,
reads no bit past the last block, and ends CLOSED and IDLE; registers that its rule does not name stay
(44_container.md R257, R260). -/
def Obligations.DecodeFileReadsTheStream : Prop :=
  ∀ (s : State) (h : Header) (pcm : List Sample) (extra : List Byte),
    s.phase = .idle → s.bc.mode = .idle ∨ s.bc.mode = .closed → s.ioOk = true → h.Legal →
    pcm.length = h.channels.toNat * h.totalFrames.toNat →
    s.bc.byteIn = packBits (h.fileBits pcm) ++ extra →
    ∃ h0 h1 : List Int, h0.length = h.totalFrames.toNat ∧
      exec .decodeFile s = .next { s.afterDraw.succeed with
        hdr := decodedForm h, hdrValid := true, cfg := decodedForm h, pcmOut := pcm,
        framesDone := h.totalFrames.toNat, hist0 := h0, hist1 := h1, phase := .idle
        bc := { s.bc with
          mode := .closed, rdpos := (h.fileBits pcm).length
          count := BitVec.ofNat 32 ((h.fileBits pcm).length / 8) } }

/-- Lossless: what ENCODE_FILE writes, DECODE_FILE turns back into the same samples and the same
configuration, CFG_STATIC_M being 0 when dynamic (43_block_codec.md R237, which the spec derives). -/
def Obligations.FileRoundTripIsLossless : Prop :=
  ∀ s t u : State, s.phase = .idle → s.bc.mode = .idle ∨ s.bc.mode = .closed → ConfigOk s →
    s.ioOk = true → s.afterDraw.ioOk = true → exec .encodeFile s = .next t →
    u.phase = .idle → u.bc.mode = .idle ∨ u.bc.mode = .closed → u.ioOk = true →
    u.bc.byteIn = t.bc.byteOut →
    ∃ v, exec .decodeFile u = .next v ∧ v.done = true ∧ v.error = u.error ∧
      v.pcmOut = s.pcmIn ∧ v.cfg = decodedForm s.cfg

/-! ### Invariants and whole-machine rules -/

/-- The reset state meets the invariant. -/
def Obligations.ResetMeetsTheInvariant : Prop := State.reset.Inv

/-- Every step keeps the invariant of Safety.lean: BC_BYTE_COUNT, the reader's bounds, the clean pending
byte (10_state.md R32, 40_bitchannel.md R128, R134), the consistency of a file run with its latched
header, FRAMES_DONE and PCM_OUT (10_state.md R34, R47; 44_container.md R258; 43_block_codec.md R238), and
the handshake (10_state.md R24, 60_exceptions.md R314). -/
def Obligations.StepKeepsTheInvariant : Prop :=
  ∀ s t : State, s.Inv → step s = .next t → t.Inv

/-- Who writes what, over every command: no command writes ARG, BYTE_IN, PCM_IN or the host's side; only
the commands named by the rules write GR_M and GR_NEG, CFG, HDR, FRAMES_DONE and the history, the
BitChannel mode, or take an IO draw; SOFT_RESET resets all but the streams (10_state.md R28, R29, R34,
R35, R46, R47; 20_memory.md R65, R67, R70). -/
def Obligations.CommandsWriteOnlyTheirRegisters : Prop :=
  ∀ (i : Instr) (s t : State), exec i s = .next t →
    (t.bc.byteIn = s.bc.byteIn ∧ t.pcmIn = s.pcmIn ∧ t.sched = s.sched ∧ t.seen = s.seen) ∧
    (i ≠ .softReset → t.arg0 = s.arg0 ∧ t.arg1 = s.arg1 ∧ t.arg2 = s.arg2) ∧
    (i ∉ [.softReset, .grConfig] → t.grM = s.grM ∧ t.grNeg = s.grNeg) ∧
    (i ∉ [.softReset, .hdrRead, .decodeFile] → t.cfg = s.cfg) ∧
    (i ∉ [.softReset, .hdrWrite, .hdrRead, .encodeFile, .decodeFile] →
      t.hdr = s.hdr ∧ t.hdrValid = s.hdrValid) ∧
    (i ∉ [.softReset, .hdrWrite, .hdrRead, .blkEncodeNext, .blkDecodeNext, .encodeFile, .decodeFile] →
      t.framesDone = s.framesDone ∧ t.hist0 = s.hist0 ∧ t.hist1 = s.hist1) ∧
    (i ∉ [.softReset, .bcOpenWrite, .bcOpenRead, .bcClose, .encodeFile, .decodeFile] →
      t.bc.mode = s.bc.mode) ∧
    (i ∉ [.bcOpenWrite, .bcOpenRead, .bcClose, .encodeFile, .decodeFile] →
      t.ioAnswers = s.ioAnswers ∧ t.draws = s.draws)

/-- The output streams only grow: no command removes or rewrites a byte of BYTE_OUT but the opening of a
new writer, and none a sample of PCM_OUT but the reading of a new header; PCM_OUT grows only by a decoded
block; `durable` is set only by a close (20_memory.md R64, R66, R68). -/
def Obligations.OutputStreamsOnlyGrow : Prop :=
  ∀ (i : Instr) (s t : State), exec i s = .next t →
    (i ∉ [.bcOpenWrite, .encodeFile] → s.bc.byteOut <+: t.bc.byteOut) ∧
    (i ∉ [.hdrRead, .decodeFile] → s.pcmOut <+: t.pcmOut) ∧
    (i ∉ [.blkDecodeNext, .hdrRead, .decodeFile] → t.pcmOut = s.pcmOut) ∧
    (s.bc.durable = false → t.bc.durable = true → i = .bcClose ∨ i = .encodeFile)

/-- R30: RES0 and RES1 are written only by the commands whose rules name them and only on success; every
other command, and every command that raises, leaves both; their reset value is 0, which SOFT_RESET
gives them too. -/
def Obligations.ResultsAreWrittenOnSuccessOnly : Prop :=
  (∀ (i : Instr) (s t : State), i ≠ .softReset → exec i s = .next t →
    (t.done = false ∨ writesRes0 i = false → t.res0 = s.res0 ∧ t.res1 = s.res1) ∧
    (i ≠ .sdToMs → i ≠ .sdToLr → t.res1 = s.res1)) ∧
  State.reset.res0 = 0 ∧ State.reset.res1 = 0

/-- Block commands read only HDR, never CFG: with other CFG values the same block is coded, and CFG stays
what it was (10_state.md R46, 70_reset_and_hazards.md R358). -/
def Obligations.BlockCommandsIgnoreTheConfiguration : Prop :=
  ∀ i ∈ [Instr.blkEncodeNext, Instr.blkDecodeNext], ∀ (s t : State) (c : Header),
    exec i s = .next t → exec i { s with cfg := c } = .next { t with cfg := c }

/-- BLK_DECODE_NEXT raises at the first failing check in stream order, with the bits read so far consumed
and nothing else changed: UNEXPECTED_EOS or BAD_PARAM at a parameter field (43_block_codec.md R230), a
failing code's error, END_OF_STREAM being UNEXPECTED_EOS (R231, R234, 60_exceptions.md R309), SAMPLE_RANGE
right after a sample out of its channel's range (R232), and SAMPLE_RANGE after the block when a left or
right sample is outside INT16 (R233). -/
def Obligations.BlkDecodeNextRaisesInStreamOrder : Prop :=
  ∀ s : State, s.phase = .decBlocks → s.bc.mode = .read → s.hdr.Legal →
    (s.hdr.dynamic = 1 →
      (s.bc.unread.length < 32 → exec .blkDecodeNext s = .next (failAt 0 .unexpectedEos s)) ∧
      (∀ v : Word, v.toInt ≤ 0 → binBits v.toNat 32 <+: s.bc.unread →
        exec .blkDecodeNext s = .next (failAt 32 .badParam s)) ∧
      (∀ m0 : Nat, s.hdr.channels = 2 → 1 ≤ m0 → m0 ≤ 2147483647 → binBits m0 32 <+: s.bc.unread →
        (s.bc.unread.length < 64 → exec .blkDecodeNext s = .next (failAt 32 .unexpectedEos s)) ∧
        (∀ v : Word, v.toInt ≤ 0 → binBits m0 32 ++ binBits v.toNat 32 <+: s.bc.unread →
          exec .blkDecodeNext s = .next (failAt 64 .badParam s)))) ∧
    (∀ (m0 m1 m : Nat) (pre : List Bool) (lo hi : Int) (xs : List Int), DivisorsOk s.hdr m0 m1 →
      InBlock s.hdr (s.hdr.blockLen s.framesDone) m0 m1 pre m lo hi xs →
      (∀ (bs : List Bool) (e : Raise) (k : Nat), s.bc.unread = pre ++ bs →
        CodeFails m (some s.hdr.scheme) bs e k →
        exec .blkDecodeNext s =
          .next (failAt (pre.length + k) (if e = .endOfStream then .unexpectedEos else e) s)) ∧
      (∀ d : Int, InInt32 d →
        ¬ (lo ≤ nextSample s.hdr (s.hdr.blockLen s.framesDone) xs d ∧
          nextSample s.hdr (s.hdr.blockLen s.framesDone) xs d ≤ hi) →
        pre ++ scode m s.hdr.scheme d <+: s.bc.unread →
        exec .blkDecodeNext s =
          .next (failAt (pre ++ scode m s.hdr.scheme d).length .sampleRange s))) ∧
    (∀ (m0 m1 : Nat) (x0 x1 : List Int), DivisorsOk s.hdr m0 m1 → s.hdr.channels = 2 →
      x0.length = s.hdr.blockLen s.framesDone → x1.length = s.hdr.blockLen s.framesDone →
      (∀ x ∈ x0, InInt16 x) → (∀ x ∈ x1, -65535 ≤ x ∧ x ≤ 65535) →
      (∃ p ∈ x0.zip x1,
        ¬ InInt16 (toLeftRight p.1 p.2).1 ∨ ¬ InInt16 (toLeftRight p.1 p.2).2) →
      s.hdr.blockBits m0 m1 x0 x1 <+: s.bc.unread →
      exec .blkDecodeNext s =
        .next (failAt (s.hdr.blockBits m0 m1 x0 x1).length .sampleRange s))
end

