-- ==== Sys2Proof/Laws/State.lean ====
section
/-!
SUPPORT. One lemma per field per named update of the state and of the BitChannel, each true by `rfl`, so
that no later proof unfolds a record update.
-/

namespace Sys2Proof.Machine

@[simp] theorem State.issue_cur (v : Word) (s : State) : (s.issue v).cur = some v := rfl
@[simp] theorem State.issue_done (v : Word) (s : State) : (s.issue v).done = false := rfl
@[simp] theorem State.issue_error (v : Word) (s : State) : (s.issue v).error = s.error := rfl
@[simp] theorem State.issue_phase (v : Word) (s : State) : (s.issue v).phase = s.phase := rfl
@[simp] theorem State.issue_arg0 (v : Word) (s : State) : (s.issue v).arg0 = s.arg0 := rfl
@[simp] theorem State.issue_arg1 (v : Word) (s : State) : (s.issue v).arg1 = s.arg1 := rfl
@[simp] theorem State.issue_arg2 (v : Word) (s : State) : (s.issue v).arg2 = s.arg2 := rfl
@[simp] theorem State.issue_res0 (v : Word) (s : State) : (s.issue v).res0 = s.res0 := rfl
@[simp] theorem State.issue_res1 (v : Word) (s : State) : (s.issue v).res1 = s.res1 := rfl
@[simp] theorem State.issue_framesDone (v : Word) (s : State) : (s.issue v).framesDone = s.framesDone := rfl
@[simp] theorem State.issue_grM (v : Word) (s : State) : (s.issue v).grM = s.grM := rfl
@[simp] theorem State.issue_grNeg (v : Word) (s : State) : (s.issue v).grNeg = s.grNeg := rfl
@[simp] theorem State.issue_cfg (v : Word) (s : State) : (s.issue v).cfg = s.cfg := rfl
@[simp] theorem State.issue_hdr (v : Word) (s : State) : (s.issue v).hdr = s.hdr := rfl
@[simp] theorem State.issue_hdrValid (v : Word) (s : State) : (s.issue v).hdrValid = s.hdrValid := rfl
@[simp] theorem State.issue_bc (v : Word) (s : State) : (s.issue v).bc = s.bc := rfl
@[simp] theorem State.issue_hist0 (v : Word) (s : State) : (s.issue v).hist0 = s.hist0 := rfl
@[simp] theorem State.issue_hist1 (v : Word) (s : State) : (s.issue v).hist1 = s.hist1 := rfl
@[simp] theorem State.issue_pcmIn (v : Word) (s : State) : (s.issue v).pcmIn = s.pcmIn := rfl
@[simp] theorem State.issue_pcmOut (v : Word) (s : State) : (s.issue v).pcmOut = s.pcmOut := rfl
@[simp] theorem State.issue_sched (v : Word) (s : State) : (s.issue v).sched = s.sched := rfl
@[simp] theorem State.issue_ioAnswers (v : Word) (s : State) : (s.issue v).ioAnswers = s.ioAnswers := rfl
@[simp] theorem State.issue_draws (v : Word) (s : State) : (s.issue v).draws = s.draws := rfl
@[simp] theorem State.issue_seen (v : Word) (s : State) : (s.issue v).seen = s.seen := rfl

@[simp] theorem State.succeed_cur (s : State) : (s.succeed).cur = none := rfl
@[simp] theorem State.succeed_done (s : State) : (s.succeed).done = true := rfl
@[simp] theorem State.succeed_error (s : State) : (s.succeed).error = s.error := rfl
@[simp] theorem State.succeed_phase (s : State) : (s.succeed).phase = s.phase := rfl
@[simp] theorem State.succeed_arg0 (s : State) : (s.succeed).arg0 = s.arg0 := rfl
@[simp] theorem State.succeed_arg1 (s : State) : (s.succeed).arg1 = s.arg1 := rfl
@[simp] theorem State.succeed_arg2 (s : State) : (s.succeed).arg2 = s.arg2 := rfl
@[simp] theorem State.succeed_res0 (s : State) : (s.succeed).res0 = s.res0 := rfl
@[simp] theorem State.succeed_res1 (s : State) : (s.succeed).res1 = s.res1 := rfl
@[simp] theorem State.succeed_framesDone (s : State) : (s.succeed).framesDone = s.framesDone := rfl
@[simp] theorem State.succeed_grM (s : State) : (s.succeed).grM = s.grM := rfl
@[simp] theorem State.succeed_grNeg (s : State) : (s.succeed).grNeg = s.grNeg := rfl
@[simp] theorem State.succeed_cfg (s : State) : (s.succeed).cfg = s.cfg := rfl
@[simp] theorem State.succeed_hdr (s : State) : (s.succeed).hdr = s.hdr := rfl
@[simp] theorem State.succeed_hdrValid (s : State) : (s.succeed).hdrValid = s.hdrValid := rfl
@[simp] theorem State.succeed_bc (s : State) : (s.succeed).bc = s.bc := rfl
@[simp] theorem State.succeed_hist0 (s : State) : (s.succeed).hist0 = s.hist0 := rfl
@[simp] theorem State.succeed_hist1 (s : State) : (s.succeed).hist1 = s.hist1 := rfl
@[simp] theorem State.succeed_pcmIn (s : State) : (s.succeed).pcmIn = s.pcmIn := rfl
@[simp] theorem State.succeed_pcmOut (s : State) : (s.succeed).pcmOut = s.pcmOut := rfl
@[simp] theorem State.succeed_sched (s : State) : (s.succeed).sched = s.sched := rfl
@[simp] theorem State.succeed_ioAnswers (s : State) : (s.succeed).ioAnswers = s.ioAnswers := rfl
@[simp] theorem State.succeed_draws (s : State) : (s.succeed).draws = s.draws := rfl
@[simp] theorem State.succeed_seen (s : State) : (s.succeed).seen = s.seen := rfl

@[simp] theorem State.raiseError_cur (e : Raise) (s : State) : (s.raiseError e).cur = none := rfl
@[simp] theorem State.raiseError_done (e : Raise) (s : State) : (s.raiseError e).done = false := rfl
@[simp] theorem State.raiseError_error (e : Raise) (s : State) : (s.raiseError e).error = some e := rfl
@[simp] theorem State.raiseError_phase (e : Raise) (s : State) : (s.raiseError e).phase = s.phase := rfl
@[simp] theorem State.raiseError_arg0 (e : Raise) (s : State) : (s.raiseError e).arg0 = s.arg0 := rfl
@[simp] theorem State.raiseError_arg1 (e : Raise) (s : State) : (s.raiseError e).arg1 = s.arg1 := rfl
@[simp] theorem State.raiseError_arg2 (e : Raise) (s : State) : (s.raiseError e).arg2 = s.arg2 := rfl
@[simp] theorem State.raiseError_res0 (e : Raise) (s : State) : (s.raiseError e).res0 = s.res0 := rfl
@[simp] theorem State.raiseError_res1 (e : Raise) (s : State) : (s.raiseError e).res1 = s.res1 := rfl
@[simp] theorem State.raiseError_framesDone (e : Raise) (s : State) : (s.raiseError e).framesDone = s.framesDone := rfl
@[simp] theorem State.raiseError_grM (e : Raise) (s : State) : (s.raiseError e).grM = s.grM := rfl
@[simp] theorem State.raiseError_grNeg (e : Raise) (s : State) : (s.raiseError e).grNeg = s.grNeg := rfl
@[simp] theorem State.raiseError_cfg (e : Raise) (s : State) : (s.raiseError e).cfg = s.cfg := rfl
@[simp] theorem State.raiseError_hdr (e : Raise) (s : State) : (s.raiseError e).hdr = s.hdr := rfl
@[simp] theorem State.raiseError_hdrValid (e : Raise) (s : State) : (s.raiseError e).hdrValid = s.hdrValid := rfl
@[simp] theorem State.raiseError_bc (e : Raise) (s : State) : (s.raiseError e).bc = s.bc := rfl
@[simp] theorem State.raiseError_hist0 (e : Raise) (s : State) : (s.raiseError e).hist0 = s.hist0 := rfl
@[simp] theorem State.raiseError_hist1 (e : Raise) (s : State) : (s.raiseError e).hist1 = s.hist1 := rfl
@[simp] theorem State.raiseError_pcmIn (e : Raise) (s : State) : (s.raiseError e).pcmIn = s.pcmIn := rfl
@[simp] theorem State.raiseError_pcmOut (e : Raise) (s : State) : (s.raiseError e).pcmOut = s.pcmOut := rfl
@[simp] theorem State.raiseError_sched (e : Raise) (s : State) : (s.raiseError e).sched = s.sched := rfl
@[simp] theorem State.raiseError_ioAnswers (e : Raise) (s : State) : (s.raiseError e).ioAnswers = s.ioAnswers := rfl
@[simp] theorem State.raiseError_draws (e : Raise) (s : State) : (s.raiseError e).draws = s.draws := rfl
@[simp] theorem State.raiseError_seen (e : Raise) (s : State) : (s.raiseError e).seen = s.seen := rfl

@[simp] theorem State.afterDraw_cur (s : State) : (s.afterDraw).cur = s.cur := rfl
@[simp] theorem State.afterDraw_done (s : State) : (s.afterDraw).done = s.done := rfl
@[simp] theorem State.afterDraw_error (s : State) : (s.afterDraw).error = s.error := rfl
@[simp] theorem State.afterDraw_phase (s : State) : (s.afterDraw).phase = s.phase := rfl
@[simp] theorem State.afterDraw_arg0 (s : State) : (s.afterDraw).arg0 = s.arg0 := rfl
@[simp] theorem State.afterDraw_arg1 (s : State) : (s.afterDraw).arg1 = s.arg1 := rfl
@[simp] theorem State.afterDraw_arg2 (s : State) : (s.afterDraw).arg2 = s.arg2 := rfl
@[simp] theorem State.afterDraw_res0 (s : State) : (s.afterDraw).res0 = s.res0 := rfl
@[simp] theorem State.afterDraw_res1 (s : State) : (s.afterDraw).res1 = s.res1 := rfl
@[simp] theorem State.afterDraw_framesDone (s : State) : (s.afterDraw).framesDone = s.framesDone := rfl
@[simp] theorem State.afterDraw_grM (s : State) : (s.afterDraw).grM = s.grM := rfl
@[simp] theorem State.afterDraw_grNeg (s : State) : (s.afterDraw).grNeg = s.grNeg := rfl
@[simp] theorem State.afterDraw_cfg (s : State) : (s.afterDraw).cfg = s.cfg := rfl
@[simp] theorem State.afterDraw_hdr (s : State) : (s.afterDraw).hdr = s.hdr := rfl
@[simp] theorem State.afterDraw_hdrValid (s : State) : (s.afterDraw).hdrValid = s.hdrValid := rfl
@[simp] theorem State.afterDraw_bc (s : State) : (s.afterDraw).bc = s.bc := rfl
@[simp] theorem State.afterDraw_hist0 (s : State) : (s.afterDraw).hist0 = s.hist0 := rfl
@[simp] theorem State.afterDraw_hist1 (s : State) : (s.afterDraw).hist1 = s.hist1 := rfl
@[simp] theorem State.afterDraw_pcmIn (s : State) : (s.afterDraw).pcmIn = s.pcmIn := rfl
@[simp] theorem State.afterDraw_pcmOut (s : State) : (s.afterDraw).pcmOut = s.pcmOut := rfl
@[simp] theorem State.afterDraw_sched (s : State) : (s.afterDraw).sched = s.sched := rfl
@[simp] theorem State.afterDraw_ioAnswers (s : State) : (s.afterDraw).ioAnswers = s.ioAnswers.tail := rfl
@[simp] theorem State.afterDraw_draws (s : State) : (s.afterDraw).draws = s.draws + 1 := rfl
@[simp] theorem State.afterDraw_seen (s : State) : (s.afterDraw).seen = s.seen := rfl

@[simp] theorem State.drawn_cur (s : State) : (s.drawn).cur = s.cur := rfl
@[simp] theorem State.drawn_done (s : State) : (s.drawn).done = s.done := rfl
@[simp] theorem State.drawn_error (s : State) : (s.drawn).error = s.error := rfl
@[simp] theorem State.drawn_phase (s : State) : (s.drawn).phase = s.phase := rfl
@[simp] theorem State.drawn_arg0 (s : State) : (s.drawn).arg0 = s.arg0 := rfl
@[simp] theorem State.drawn_arg1 (s : State) : (s.drawn).arg1 = s.arg1 := rfl
@[simp] theorem State.drawn_arg2 (s : State) : (s.drawn).arg2 = s.arg2 := rfl
@[simp] theorem State.drawn_res0 (s : State) : (s.drawn).res0 = s.res0 := rfl
@[simp] theorem State.drawn_res1 (s : State) : (s.drawn).res1 = s.res1 := rfl
@[simp] theorem State.drawn_framesDone (s : State) : (s.drawn).framesDone = s.framesDone := rfl
@[simp] theorem State.drawn_grM (s : State) : (s.drawn).grM = s.grM := rfl
@[simp] theorem State.drawn_grNeg (s : State) : (s.drawn).grNeg = s.grNeg := rfl
@[simp] theorem State.drawn_cfg (s : State) : (s.drawn).cfg = s.cfg := rfl
@[simp] theorem State.drawn_hdr (s : State) : (s.drawn).hdr = s.hdr := rfl
@[simp] theorem State.drawn_hdrValid (s : State) : (s.drawn).hdrValid = s.hdrValid := rfl
@[simp] theorem State.drawn_bc (s : State) : (s.drawn).bc = s.bc := rfl
@[simp] theorem State.drawn_hist0 (s : State) : (s.drawn).hist0 = s.hist0 := rfl
@[simp] theorem State.drawn_hist1 (s : State) : (s.drawn).hist1 = s.hist1 := rfl
@[simp] theorem State.drawn_pcmIn (s : State) : (s.drawn).pcmIn = s.pcmIn := rfl
@[simp] theorem State.drawn_pcmOut (s : State) : (s.drawn).pcmOut = s.pcmOut := rfl
@[simp] theorem State.drawn_sched (s : State) : (s.drawn).sched = s.sched := rfl
@[simp] theorem State.drawn_ioAnswers (s : State) : (s.drawn).ioAnswers = s.ioAnswers := rfl
@[simp] theorem State.drawn_draws (s : State) : (s.drawn).draws = s.draws + 1 := rfl
@[simp] theorem State.drawn_seen (s : State) : (s.drawn).seen = s.seen := rfl

@[simp] theorem State.coreReset_cur (s : State) : (s.coreReset).cur = none := rfl
@[simp] theorem State.coreReset_done (s : State) : (s.coreReset).done = false := rfl
@[simp] theorem State.coreReset_error (s : State) : (s.coreReset).error = none := rfl
@[simp] theorem State.coreReset_phase (s : State) : (s.coreReset).phase = .idle := rfl
@[simp] theorem State.coreReset_arg0 (s : State) : (s.coreReset).arg0 = 0 := rfl
@[simp] theorem State.coreReset_arg1 (s : State) : (s.coreReset).arg1 = 0 := rfl
@[simp] theorem State.coreReset_arg2 (s : State) : (s.coreReset).arg2 = 0 := rfl
@[simp] theorem State.coreReset_res0 (s : State) : (s.coreReset).res0 = 0 := rfl
@[simp] theorem State.coreReset_res1 (s : State) : (s.coreReset).res1 = 0 := rfl
@[simp] theorem State.coreReset_framesDone (s : State) : (s.coreReset).framesDone = 0 := rfl
@[simp] theorem State.coreReset_grM (s : State) : (s.coreReset).grM = 0 := rfl
@[simp] theorem State.coreReset_grNeg (s : State) : (s.coreReset).grNeg = .zigZag := rfl
@[simp] theorem State.coreReset_cfg (s : State) : (s.coreReset).cfg = Header.reset := rfl
@[simp] theorem State.coreReset_hdr (s : State) : (s.coreReset).hdr = Header.reset := rfl
@[simp] theorem State.coreReset_hdrValid (s : State) : (s.coreReset).hdrValid = false := rfl
@[simp] theorem State.coreReset_bc (s : State) : (s.coreReset).bc = { BitChannel.reset with byteOut := s.bc.byteOut, durable := s.bc.durable, byteIn := s.bc.byteIn } := rfl
@[simp] theorem State.coreReset_hist0 (s : State) : (s.coreReset).hist0 = [] := rfl
@[simp] theorem State.coreReset_hist1 (s : State) : (s.coreReset).hist1 = [] := rfl
@[simp] theorem State.coreReset_pcmIn (s : State) : (s.coreReset).pcmIn = s.pcmIn := rfl
@[simp] theorem State.coreReset_pcmOut (s : State) : (s.coreReset).pcmOut = s.pcmOut := rfl
@[simp] theorem State.coreReset_sched (s : State) : (s.coreReset).sched = s.sched := rfl
@[simp] theorem State.coreReset_ioAnswers (s : State) : (s.coreReset).ioAnswers = s.ioAnswers := rfl
@[simp] theorem State.coreReset_draws (s : State) : (s.coreReset).draws = s.draws := rfl
@[simp] theorem State.coreReset_seen (s : State) : (s.coreReset).seen = s.seen := rfl

@[simp] theorem State.hardReset_cur (s : State) : (s.hardReset).cur = none := rfl
@[simp] theorem State.hardReset_done (s : State) : (s.hardReset).done = false := rfl
@[simp] theorem State.hardReset_error (s : State) : (s.hardReset).error = none := rfl
@[simp] theorem State.hardReset_phase (s : State) : (s.hardReset).phase = .idle := rfl
@[simp] theorem State.hardReset_arg0 (s : State) : (s.hardReset).arg0 = 0 := rfl
@[simp] theorem State.hardReset_arg1 (s : State) : (s.hardReset).arg1 = 0 := rfl
@[simp] theorem State.hardReset_arg2 (s : State) : (s.hardReset).arg2 = 0 := rfl
@[simp] theorem State.hardReset_res0 (s : State) : (s.hardReset).res0 = 0 := rfl
@[simp] theorem State.hardReset_res1 (s : State) : (s.hardReset).res1 = 0 := rfl
@[simp] theorem State.hardReset_framesDone (s : State) : (s.hardReset).framesDone = 0 := rfl
@[simp] theorem State.hardReset_grM (s : State) : (s.hardReset).grM = 0 := rfl
@[simp] theorem State.hardReset_grNeg (s : State) : (s.hardReset).grNeg = .zigZag := rfl
@[simp] theorem State.hardReset_cfg (s : State) : (s.hardReset).cfg = Header.reset := rfl
@[simp] theorem State.hardReset_hdr (s : State) : (s.hardReset).hdr = Header.reset := rfl
@[simp] theorem State.hardReset_hdrValid (s : State) : (s.hardReset).hdrValid = false := rfl
@[simp] theorem State.hardReset_bc (s : State) : (s.hardReset).bc = { BitChannel.reset with byteIn := s.bc.byteIn } := rfl
@[simp] theorem State.hardReset_hist0 (s : State) : (s.hardReset).hist0 = [] := rfl
@[simp] theorem State.hardReset_hist1 (s : State) : (s.hardReset).hist1 = [] := rfl
@[simp] theorem State.hardReset_pcmIn (s : State) : (s.hardReset).pcmIn = s.pcmIn := rfl
@[simp] theorem State.hardReset_pcmOut (s : State) : (s.hardReset).pcmOut = [] := rfl
@[simp] theorem State.hardReset_sched (s : State) : (s.hardReset).sched = s.sched := rfl
@[simp] theorem State.hardReset_ioAnswers (s : State) : (s.hardReset).ioAnswers = s.ioAnswers := rfl
@[simp] theorem State.hardReset_draws (s : State) : (s.hardReset).draws = s.draws := rfl
@[simp] theorem State.hardReset_seen (s : State) : (s.hardReset).seen = s.seen := rfl

@[simp] theorem BitChannel.emitByte_mode (x : Byte) (b : BitChannel) : (b.emitByte x).mode = b.mode := rfl
@[simp] theorem BitChannel.emitByte_wpend (x : Byte) (b : BitChannel) : (b.emitByte x).wpend = b.wpend := rfl
@[simp] theorem BitChannel.emitByte_wpos (x : Byte) (b : BitChannel) : (b.emitByte x).wpos = b.wpos := rfl
@[simp] theorem BitChannel.emitByte_rdpos (x : Byte) (b : BitChannel) : (b.emitByte x).rdpos = b.rdpos := rfl
@[simp] theorem BitChannel.emitByte_count (x : Byte) (b : BitChannel) : (b.emitByte x).count = b.count + 1 := rfl
@[simp] theorem BitChannel.emitByte_byteOut (x : Byte) (b : BitChannel) : (b.emitByte x).byteOut = b.byteOut ++ [x] := rfl
@[simp] theorem BitChannel.emitByte_durable (x : Byte) (b : BitChannel) : (b.emitByte x).durable = b.durable := rfl
@[simp] theorem BitChannel.emitByte_byteIn (x : Byte) (b : BitChannel) : (b.emitByte x).byteIn = b.byteIn := rfl

@[simp] theorem BitChannel.advance_mode (n : Nat) (b : BitChannel) : (b.advance n).mode = b.mode := rfl
@[simp] theorem BitChannel.advance_wpend (n : Nat) (b : BitChannel) : (b.advance n).wpend = b.wpend := rfl
@[simp] theorem BitChannel.advance_wpos (n : Nat) (b : BitChannel) : (b.advance n).wpos = b.wpos := rfl
@[simp] theorem BitChannel.advance_rdpos (n : Nat) (b : BitChannel) : (b.advance n).rdpos = b.rdpos + n := rfl
@[simp] theorem BitChannel.advance_count (n : Nat) (b : BitChannel) : (b.advance n).count = BitVec.ofNat 32 ((b.rdpos + n) / 8) := rfl
@[simp] theorem BitChannel.advance_byteOut (n : Nat) (b : BitChannel) : (b.advance n).byteOut = b.byteOut := rfl
@[simp] theorem BitChannel.advance_durable (n : Nat) (b : BitChannel) : (b.advance n).durable = b.durable := rfl
@[simp] theorem BitChannel.advance_byteIn (n : Nat) (b : BitChannel) : (b.advance n).byteIn = b.byteIn := rfl

/-- BUSY falls when a command ends (30_encoding.md R81). -/
@[simp] theorem State.succeed_busy (s : State) : s.succeed.busy = false := rfl

/-- BUSY falls when a command raises (60_exceptions.md R313). -/
@[simp] theorem State.raiseError_busy (e : Raise) (s : State) : (s.raiseError e).busy = false := rfl

/-- BUSY rises when a command is issued (10_state.md R23). -/
@[simp] theorem State.issue_busy (v : Word) (s : State) : (s.issue v).busy = true := rfl

end Sys2Proof.Machine
end

