-- ==== Sys2Proof/Laws/Run.lean ====
section
/-!
SUPPORT. How a command body runs: the equations of `EStateM`, what each guard and each lifting can do,
how a command ends, and `Relates`, which carries a reflexive and transitive relation between the state
before and the state after through a body.
-/

namespace Sys2Proof.Machine

variable {σ α β : Type}

/-! ### The equations of a body -/

@[simp] theorem bind_apply (x : EStateM Raise σ α) (f : α → EStateM Raise σ β) (s : σ) :
    (x >>= f) s = match x s with
      | .ok a t => f a t
      | .error e t => .error e t := by
  change EStateM.bind x f s = _
  unfold EStateM.bind
  cases x s <;> rfl

@[simp] theorem pure_apply (a : α) (s : σ) : (pure a : EStateM Raise σ α) s = .ok a s := rfl

@[simp] theorem get_apply (s : σ) : (get : EStateM Raise σ σ) s = .ok s s := rfl

@[simp] theorem throw_apply (e : Raise) (s : σ) :
    (throw e : EStateM Raise σ α) s = .error e s := rfl

@[simp] theorem change_apply (f : State → State) (s : State) : change f s = .ok () (f s) := rfl

@[simp] theorem drawIo_apply (s : State) : drawIo s = .ok s.ioOk s.afterDraw := rfl

/-! ### What a guard and a lifting can do -/

/-- A check raises exactly when its condition holds, and changes nothing (00_scope.md R18). -/
theorem raiseIf_cases (c : Prop) [Decidable c] (e : Raise) (s : σ) :
    (c ∧ raiseIf c e s = .error e s) ∨ (¬ c ∧ raiseIf c e s = .ok () s) := by
  by_cases h : c
  · exact .inl ⟨h, by simp [raiseIf, h]⟩
  · exact .inr ⟨h, by simp [raiseIf, h]⟩

theorem raiseIf_pos {c : Prop} [Decidable c] (h : c) (e : Raise) (s : σ) :
    raiseIf c e s = .error e s := by simp [raiseIf, h]

theorem raiseIf_neg {c : Prop} [Decidable c] (h : ¬ c) (e : Raise) (s : σ) :
    raiseIf c e s = .ok () s := by simp [raiseIf, h]

theorem needPhase_ok {ps : List Phase} {s : State} (h : s.phase ∈ ps) :
    needPhase ps s = .ok () s := by simp [needPhase, h]

theorem needPhase_error {ps : List Phase} {s : State} (h : s.phase ∉ ps) :
    needPhase ps s = .error .wrongPhase s := by simp [needPhase, h]

theorem needMode_ok {ms : List BcMode} {s : State} (h : s.bc.mode ∈ ms) :
    needMode ms s = .ok () s := by simp [needMode, h]

theorem needMode_error {ms : List BcMode} {s : State} (h : s.bc.mode ∉ ms) :
    needMode ms s = .error .wrongBcMode s := by simp [needMode, h]

/-- A reader that succeeds on the BitChannel succeeds on the state. -/
theorem onChannel_ok {r : Reader α} {s : State} {a : α} {b : BitChannel}
    (h : r s.bc = .ok a b) : onChannel r s = .ok a { s with bc := b } := by simp [onChannel, h]

/-- A reader that raises on the BitChannel raises on the state. -/
theorem onChannel_error {r : Reader α} {s : State} {e : Raise} {b : BitChannel}
    (h : r s.bc = .error e b) : onChannel r s = .error e { s with bc := b } := by
  simp [onChannel, h]

/-- Inside a structure a read that succeeds is as it was (60_exceptions.md R309). -/
theorem structural_ok {r : Reader α} {b c : BitChannel} {a : α} (h : r b = .ok a c) :
    structural r b = .ok a c := by simp [structural, h]

/-- Inside a structure END_OF_STREAM is UNEXPECTED_EOS; other errors stay (60_exceptions.md R309). -/
theorem structural_error {r : Reader α} {b c : BitChannel} {e : Raise} (h : r b = .error e c) :
    structural r b = .error (if e = .endOfStream then .unexpectedEos else e) c := by
  simp [structural, h]

/-! ### How a command ends -/

/-- A settled body ended in success or in an error entry (30_encoding.md R81). -/
theorem settle_cases (r : EStateM.Result Raise State Unit) :
    (∃ u, r = .ok () u ∧ settle r = u.succeed) ∨
      (∃ e u, r = .error e u ∧ settle r = u.raiseError e) := by
  cases r with
  | ok a u => exact .inl ⟨u, rfl, rfl⟩
  | error e u => exact .inr ⟨e, u, rfl, rfl⟩

/-- What a command's next state is: its body settled. -/
theorem execute_next {body : Cmd Unit} {s t : State} (h : execute body s = .next t) :
    t = settle (body s) := by
  simp only [execute, Host.Outcome.next.injEq] at h
  exact h.symm

/-- A command whose body succeeds. -/
theorem execute_ok {body : Cmd Unit} {s u : State} (h : body s = .ok () u) :
    execute body s = .next u.succeed := by simp [execute, h, settle]

/-- A command whose body raises. -/
theorem execute_error {body : Cmd Unit} {s u : State} {e : Raise} (h : body s = .error e u) :
    execute body s = .next (u.raiseError e) := by simp [execute, h, settle]

/-- Every instruction is some body, executed: no arm of `exec` faults or refuses. -/
theorem exec_is_execute (i : Instr) : ∃ body : Cmd Unit, ∀ s, exec i s = execute body s := by
  cases i <;> exact ⟨_, fun _ => rfl⟩

/-! ### Relations kept by a body -/

/-- The state a computation ends in, whether it raises or not. -/
def endState : EStateM.Result Raise σ α → σ
  | .ok _ t => t
  | .error _ t => t

/-- Every run of `c` relates the state before to the state after. -/
def Relates (R : σ → σ → Prop) (c : EStateM Raise σ α) : Prop := ∀ s, R s (endState (c s))

theorem Relates.bind {R : σ → σ → Prop} (trans : ∀ a b c, R a b → R b c → R a c)
    {x : EStateM Raise σ α} {f : α → EStateM Raise σ β} (hx : Relates R x)
    (hf : ∀ a, Relates R (f a)) : Relates R (x >>= f) := by
  intro s
  have h1 := hx s
  rw [bind_apply]
  cases hxs : x s with
  | ok a t =>
    rw [hxs] at h1
    exact trans _ _ _ h1 (hf a t)
  | error e t =>
    rw [hxs] at h1
    exact h1

theorem Relates.pure {R : σ → σ → Prop} (refl : ∀ s, R s s) (a : α) :
    Relates R (pure a : EStateM Raise σ α) := fun s => refl s

theorem Relates.get {R : σ → σ → Prop} (refl : ∀ s, R s s) :
    Relates R (MonadState.get : EStateM Raise σ σ) := fun s => refl s

theorem Relates.throw {R : σ → σ → Prop} (refl : ∀ s, R s s) (e : Raise) :
    Relates R (MonadExcept.throw e : EStateM Raise σ α) := fun s => refl s

theorem Relates.raiseIf {R : σ → σ → Prop} (refl : ∀ s, R s s) (c : Prop) [Decidable c] (e : Raise) :
    Relates R (Machine.raiseIf c e : EStateM Raise σ Unit) := by
  intro s
  rcases raiseIf_cases c e s with ⟨_, h⟩ | ⟨_, h⟩ <;> rw [h] <;> exact refl s

theorem Relates.needPhase {R : State → State → Prop} (refl : ∀ s, R s s) (ps : List Phase) :
    Relates R (Machine.needPhase ps) := by
  intro s
  by_cases h : s.phase ∈ ps
  · rw [needPhase_ok h]; exact refl s
  · rw [needPhase_error h]; exact refl s

theorem Relates.needMode {R : State → State → Prop} (refl : ∀ s, R s s) (ms : List BcMode) :
    Relates R (Machine.needMode ms) := by
  intro s
  by_cases h : s.bc.mode ∈ ms
  · rw [needMode_ok h]; exact refl s
  · rw [needMode_error h]; exact refl s

theorem Relates.change {R : State → State → Prop} {f : State → State} (h : ∀ s, R s (f s)) :
    Relates R (Machine.change f) := fun s => h s

theorem Relates.drawIo {R : State → State → Prop} (h : ∀ s, R s s.afterDraw) :
    Relates R Machine.drawIo := fun s => h s

theorem Relates.ite {R : σ → σ → Prop} {c : Prop} [Decidable c] {x y : EStateM Raise σ α}
    (hx : Relates R x) (hy : Relates R y) : Relates R (if c then x else y) := by
  by_cases h : c
  · simpa [h] using hx
  · simpa [h] using hy

/-- A reader's relation between BitChannels gives a relation between states. -/
theorem Relates.onChannel {Q : BitChannel → BitChannel → Prop} {R : State → State → Prop}
    {r : Reader α} (h : Relates Q r) (hR : ∀ s b, Q s.bc b → R s { s with bc := b }) :
    Relates R (Machine.onChannel r) := by
  intro s
  have h1 := h s.bc
  cases hr : r s.bc with
  | ok a b =>
    rw [hr] at h1
    rw [onChannel_ok hr]
    exact hR s b h1
  | error e b =>
    rw [hr] at h1
    rw [onChannel_error hr]
    exact hR s b h1

theorem Relates.structural {R : BitChannel → BitChannel → Prop} {r : Reader α} (h : Relates R r) :
    Relates R (Machine.structural r) := by
  intro b
  have h1 := h b
  cases hr : r b with
  | ok a c =>
    rw [hr] at h1
    rw [structural_ok hr]
    exact h1
  | error e c =>
    rw [hr] at h1
    rw [structural_error hr]
    exact h1

end Sys2Proof.Machine
end

