-- ==== Sys2Proof/Laws/Channel.lean ====
section
/-!
SUPPORT. What the BitChannel's primitives leave alone: a writer never moves the reader, the mode or
`durable`; a reader moves its own cursor and count only. Every coding function is built from the
primitives, so each has its one lemma here.
-/

namespace Sys2Proof.Machine

/-! ### Writers -/

/-- What no writer changes, and what it only adds to (20_memory.md R64: "append-only"). -/
structure WriterFrame (b c : BitChannel) : Prop where
  mode : c.mode = b.mode
  rdpos : c.rdpos = b.rdpos
  durable : c.durable = b.durable
  byteIn : c.byteIn = b.byteIn
  byteOut : b.byteOut <+: c.byteOut

theorem WriterFrame.refl (b : BitChannel) : WriterFrame b b :=
  ⟨rfl, rfl, rfl, rfl, List.prefix_refl _⟩

theorem WriterFrame.trans {b c d : BitChannel} (h : WriterFrame b c) (k : WriterFrame c d) :
    WriterFrame b d :=
  ⟨k.mode.trans h.mode, k.rdpos.trans h.rdpos, k.durable.trans h.durable,
    k.byteIn.trans h.byteIn, h.byteOut.trans k.byteOut⟩

/-- `WriteBit` emits a byte when the pending one is full and holds the bit otherwise
(40_bitchannel.md R124). -/
theorem writeBit_cases (bit : Bool) (b : BitChannel) :
    (b.wpos = 7 ∧ b.writeBit bit =
        { b.emitByte (b.pendWith bit) with wpend := 0, wpos := 0 }) ∨
      (b.wpos ≠ 7 ∧ b.writeBit bit = { b with wpend := b.pendWith bit, wpos := b.wpos + 1 }) := by
  by_cases h : b.wpos = 7
  · exact .inl ⟨h, by simp [BitChannel.writeBit, h]⟩
  · exact .inr ⟨h, by simp [BitChannel.writeBit, h]⟩

theorem writeBit_frame (bit : Bool) (b : BitChannel) : WriterFrame b (b.writeBit bit) := by
  rcases writeBit_cases bit b with ⟨_, h⟩ | ⟨_, h⟩ <;> rw [h]
  · exact ⟨rfl, rfl, rfl, rfl, List.prefix_append _ _⟩
  · exact ⟨rfl, rfl, rfl, rfl, List.prefix_refl _⟩

theorem writeBits_frame (v n : Nat) (b : BitChannel) : WriterFrame b (b.writeBits v n) := by
  induction n generalizing b with
  | zero => exact .refl b
  | succ n ih => exact (writeBit_frame _ b).trans (ih _)

theorem writeOnes_frame (q : Nat) (b : BitChannel) : WriterFrame b (b.writeOnes q) := by
  induction q generalizing b with
  | zero => exact .refl b
  | succ q ih => exact (writeBit_frame _ b).trans (ih _)

theorem putBits_frame (bits : List Bool) (b : BitChannel) : WriterFrame b (b.putBits bits) := by
  induction bits generalizing b with
  | nil => exact .refl b
  | cons x xs ih => exact (writeBit_frame x b).trans (ih _)

/-- Writing a bit string is writing its parts in turn. -/
theorem putBits_append (xs ys : List Bool) (b : BitChannel) :
    b.putBits (xs ++ ys) = (b.putBits xs).putBits ys := by
  simp [BitChannel.putBits]

@[simp] theorem putBits_nil (b : BitChannel) : b.putBits [] = b := rfl

@[simp] theorem putBits_cons (x : Bool) (xs : List Bool) (b : BitChannel) :
    b.putBits (x :: xs) = (b.writeBit x).putBits xs := rfl

theorem flush_frame (b : BitChannel) : WriterFrame b b.flush := by
  unfold BitChannel.flush
  split
  · exact .refl b
  · exact ⟨rfl, rfl, rfl, rfl, List.prefix_append _ _⟩

theorem encodeUnsigned_frame (m u : Nat) (b : BitChannel) : WriterFrame b (b.encodeUnsigned m u) := by
  have h : WriterFrame b ((b.writeOnes (u / m)).writeBit false) :=
    (writeOnes_frame _ b).trans (writeBit_frame _ _)
  unfold BitChannel.encodeUnsigned
  dsimp only
  split
  · exact h
  · split
    · exact h.trans (writeBits_frame _ _ _)
    · exact h.trans (writeBits_frame _ _ _)

theorem encodeSigned_frame (m : Nat) (scheme : Scheme) (n : Int) (b : BitChannel) :
    WriterFrame b (b.encodeSigned m scheme n) := by
  cases scheme with
  | zigZag => exact encodeUnsigned_frame _ _ b
  | signMagnitude =>
    unfold BitChannel.encodeSigned
    dsimp only
    split
    · exact encodeUnsigned_frame _ _ b
    · exact (encodeUnsigned_frame _ _ b).trans (writeBit_frame _ _)

theorem encodeAll_frame (m : Nat) (scheme : Scheme) (vs : List Int) (b : BitChannel) :
    WriterFrame b (b.encodeAll m scheme vs) := by
  induction vs generalizing b with
  | nil => exact .refl b
  | cons v vs ih => exact (encodeSigned_frame m scheme v b).trans (ih _)

theorem encodeBlock_frame (h : Header) (x0 x1 : List Int) (b : BitChannel) :
    WriterFrame b (b.encodeBlock h x0 x1) := by
  unfold BitChannel.encodeBlock
  dsimp only
  have h1 : ∀ (c : Prop) [Decidable c] (v n : Nat) (b : BitChannel),
      WriterFrame b (if c then b.writeBits v n else b) := by
    intro c _ v n b
    split
    · exact writeBits_frame _ _ _
    · exact .refl b
  have h2 := ((h1 (h.dynamic = 1) (h.encodeDivisor (h.warmup x0.length) x0) 32 b).trans
    (h1 (h.dynamic = 1 ∧ h.stereo = true) (h.encodeDivisor (h.warmup x0.length) x1) 32 _)).trans
    (encodeAll_frame (h.encodeDivisor (h.warmup x0.length) x0) h.scheme
      (codedValues h.order.toNat (h.warmup x0.length) x0) _)
  split
  · exact h2.trans (encodeAll_frame _ _ _ _)
  · exact h2

theorem writeHeader_frame (h : Header) (b : BitChannel) : WriterFrame b (b.writeHeader h) := by
  unfold BitChannel.writeHeader
  dsimp only
  have h7 := ((((((writeBits_frame h.sampleRate.toNat 32 b).trans
    (writeBits_frame h.totalFrames.toNat 32 _)).trans
    (writeBits_frame h.blockSize.toNat 16 _)).trans
    (writeBits_frame h.channels.toNat 8 _)).trans
    (writeBits_frame h.order.toNat 8 _)).trans
    (writeBits_frame h.neg.toNat 8 _)).trans
    (writeBits_frame h.dynamic.toNat 1 _)
  split
  · exact h7.trans (writeBits_frame _ _ _)
  · exact h7

/-! ### Readers -/

/-- What no reader changes; its cursor only moves forward (40_bitchannel.md R127, 20_memory.md R76). -/
structure ReaderFrame (b c : BitChannel) : Prop where
  mode : c.mode = b.mode
  wpend : c.wpend = b.wpend
  wpos : c.wpos = b.wpos
  byteOut : c.byteOut = b.byteOut
  durable : c.durable = b.durable
  byteIn : c.byteIn = b.byteIn
  rdpos : b.rdpos ≤ c.rdpos

theorem ReaderFrame.refl (b : BitChannel) : ReaderFrame b b :=
  ⟨rfl, rfl, rfl, rfl, rfl, rfl, le_refl _⟩

theorem ReaderFrame.trans (b c d : BitChannel) (h : ReaderFrame b c) (k : ReaderFrame c d) :
    ReaderFrame b d :=
  ⟨k.mode.trans h.mode, k.wpend.trans h.wpend, k.wpos.trans h.wpos, k.byteOut.trans h.byteOut,
    k.durable.trans h.durable, k.byteIn.trans h.byteIn, h.rdpos.trans k.rdpos⟩

/-- `ReadBits` raises with nothing consumed when too few bits remain, and else consumes them
(40_bitchannel.md R127). -/
theorem readBits_cases (n : Nat) (b : BitChannel) :
    (b.remaining < n ∧ readBits n b = .error .endOfStream b) ∨
      (n ≤ b.remaining ∧ readBits n b = .ok (b.sourceBits b.rdpos n) (b.advance n)) := by
  by_cases h : b.remaining < n
  · exact .inl ⟨h, by simp [readBits, h]⟩
  · exact .inr ⟨by omega, by simp [readBits, h]⟩

/-- A value read in `n` bits is below `2^n` (40_bitchannel.md R127: "0 ≤ v < 2^n"). -/
theorem sourceBits_lt (b : BitChannel) (i n : Nat) : b.sourceBits i n < 2 ^ n := by
  induction n with
  | zero => simp [BitChannel.sourceBits]
  | succ n ih =>
    have : (b.sourceBit (i + n)).toNat ≤ 1 := Bool.toNat_le _
    rw [BitChannel.sourceBits, pow_succ]
    omega

theorem readBits_frame (n : Nat) : Relates ReaderFrame (readBits n) := by
  intro b
  rcases readBits_cases n b with ⟨_, h⟩ | ⟨_, h⟩ <;> rw [h]
  · exact .refl b
  · exact ⟨rfl, rfl, rfl, rfl, rfl, rfl, Nat.le_add_right _ _⟩

theorem readBit_frame : Relates ReaderFrame readBit :=
  .bind ReaderFrame.trans (readBits_frame 1) fun _ => .pure .refl _

theorem readUnary_frame (m : Nat) : ∀ fuel q, Relates ReaderFrame (readUnary m fuel q) := by
  intro fuel
  induction fuel with
  | zero => intro q; exact .throw .refl _
  | succ fuel ih =>
    intro q
    unfold readUnary
    refine .bind ReaderFrame.trans readBit_frame fun t => ?_
    refine .ite (.pure .refl _) ?_
    exact .bind ReaderFrame.trans (.raiseIf .refl _ _) fun _ => ih _

theorem readRemainder_frame (m : Nat) : Relates ReaderFrame (readRemainder m) := by
  unfold readRemainder
  refine .ite (.pure .refl _) ?_
  refine .bind ReaderFrame.trans (readBits_frame _) fun r => ?_
  refine .ite (.pure .refl _) ?_
  exact .bind ReaderFrame.trans (readBits_frame _) fun _ => .pure .refl _

theorem decodeUnsigned_frame (m : Nat) : Relates ReaderFrame (decodeUnsigned m) := by
  unfold decodeUnsigned
  refine .bind ReaderFrame.trans (.get .refl) fun b => ?_
  refine .bind ReaderFrame.trans (readUnary_frame _ _ _) fun q => ?_
  refine .bind ReaderFrame.trans (readRemainder_frame _) fun r => ?_
  exact .bind ReaderFrame.trans (.raiseIf .refl _ _) fun _ => .pure .refl _

theorem decodeSigned_frame (m : Nat) (scheme : Scheme) :
    Relates ReaderFrame (decodeSigned m scheme) := by
  unfold decodeSigned
  refine .bind ReaderFrame.trans (decodeUnsigned_frame _) fun u => ?_
  cases scheme with
  | zigZag => exact .pure .refl _
  | signMagnitude =>
    refine .ite (.pure .refl _) ?_
    refine .bind ReaderFrame.trans readBit_frame fun s => ?_
    exact .bind ReaderFrame.trans (.raiseIf .refl _ _) fun _ => .pure .refl _

theorem readParam_frame : Relates ReaderFrame readParam := by
  refine .bind ReaderFrame.trans (readBits_frame _) fun v => ?_
  exact .bind ReaderFrame.trans (.raiseIf .refl _ _) fun _ => .pure .refl _

theorem readParams_frame (h : Header) : Relates ReaderFrame (readParams h) := by
  unfold readParams
  refine .ite ?_ (.pure .refl _)
  refine .bind ReaderFrame.trans readParam_frame fun m0 => ?_
  refine .ite (.pure .refl _) ?_
  exact .bind ReaderFrame.trans readParam_frame fun _ => .pure .refl _

theorem readChannel_frame (m : Nat) (scheme : Scheme) (order w : Nat) (lo hi : Int) :
    ∀ n i prev, Relates ReaderFrame (readChannel m scheme order w lo hi n i prev) := by
  intro n
  induction n with
  | zero => intro i prev; exact .pure .refl _
  | succ n ih =>
    intro i prev
    unfold readChannel
    refine .bind ReaderFrame.trans (decodeSigned_frame _ _) fun d => ?_
    exact .bind ReaderFrame.trans (.raiseIf .refl _ _) fun _ => ih _ _

theorem readBlock_frame (h : Header) (len : Nat) : Relates ReaderFrame (readBlock h len) := by
  unfold readBlock
  refine .bind ReaderFrame.trans (readParams_frame _) fun m => ?_
  refine .bind ReaderFrame.trans (readChannel_frame _ _ _ _ _ _ _ _ _) fun x0 => ?_
  refine .ite (.pure .refl _) ?_
  refine .bind ReaderFrame.trans (readChannel_frame _ _ _ _ _ _ _ _ _) fun x1 => ?_
  exact .bind ReaderFrame.trans (.raiseIf .refl _ _) fun _ => .pure .refl _

theorem readStaticM_frame (dy : Nat) : Relates ReaderFrame (readStaticM dy) :=
  .ite (readBits_frame _) (.pure .refl _)

theorem readHeader_frame : Relates ReaderFrame readHeader := by
  unfold readHeader
  refine .bind ReaderFrame.trans (readBits_frame _) fun sr => ?_
  refine .bind ReaderFrame.trans (readBits_frame _) fun tf => ?_
  refine .bind ReaderFrame.trans (readBits_frame _) fun bs => ?_
  refine .bind ReaderFrame.trans (readBits_frame _) fun ch => ?_
  refine .bind ReaderFrame.trans (readBits_frame _) fun po => ?_
  refine .bind ReaderFrame.trans (readBits_frame _) fun ng => ?_
  refine .bind ReaderFrame.trans (readBits_frame _) fun dy => ?_
  exact .bind ReaderFrame.trans (readStaticM_frame _) fun sm => .pure .refl _

theorem validateHdr_frame (h : Header) : Relates ReaderFrame (validateHdr h) := by
  unfold validateHdr
  exact .bind ReaderFrame.trans (.raiseIf .refl _ _) fun _ => .raiseIf .refl _ _

end Sys2Proof.Machine
end

