-- ==== Sys2Proof/Laws/Block.lean ====
section
/-!
SUPPORT. Lengths of the block functions, and what the state changes of a block leave alone.
-/

namespace Sys2Proof.Machine

/-- A block is no longer than the frames that remain (43_block_codec.md R210). -/
theorem blockLen_le (h : Header) (f0 : Nat) : h.blockLen f0 ≤ h.totalFrames.toNat - f0 :=
  Nat.min_le_right _ _

/-- A block with frames left and a legal block size has at least one frame. -/
theorem blockLen_pos {h : Header} {f0 : Nat} (hb : h.blockSize ≠ 0)
    (hf : f0 < h.totalFrames.toNat) : 0 < h.blockLen f0 := by
  have : h.blockSize.toNat ≠ 0 := fun h0 => hb (BitVec.eq_of_toNat_eq h0)
  unfold Header.blockLen
  omega

/-- Channel 0 has one sample per frame of the block (43_block_codec.md R211). -/
@[simp] theorem channelSamples_length0 (h : Header) (pcm : List Sample) (f0 len : Nat) :
    (h.channelSamples pcm f0 len).1.length = len := by
  unfold Header.channelSamples
  split <;> simp

/-- The side channel has one sample per frame with two channels, none with one
(42_predictor_stereo.md R198). -/
theorem channelSamples_length1 (h : Header) (pcm : List Sample) (f0 len : Nat) :
    (h.channelSamples pcm f0 len).2.length = if h.stereo = true then len else 0 := by
  unfold Header.channelSamples
  split <;> simp_all

@[simp] theorem codedFrom_length (order w : Nat) (xs : List Int) :
    ∀ i prev, (codedFrom order w i prev xs).length = xs.length := by
  induction xs with
  | nil => intro i prev; rfl
  | cons x xs ih => intro i prev; simp [codedFrom, ih]

/-- One value is coded per sample (43_block_codec.md R218). -/
@[simp] theorem codedValues_length (order w : Nat) (xs : List Int) :
    (codedValues order w xs).length = xs.length := codedFrom_length order w xs 0 []

@[simp] theorem binBits_length (v n : Nat) : (binBits v n).length = n := by
  induction n with
  | zero => rfl
  | succ n ih => simp [binBits, ih]

@[simp] theorem byteBits_length (x : Byte) : (byteBits x).length = 8 := binBits_length _ _

/-- A byte sequence has eight bits per byte (20_memory.md R65). -/
@[simp] theorem streamOf_length (bs : List Byte) : (streamOf bs).length = 8 * bs.length := by
  induction bs with
  | nil => rfl
  | cons x xs ih =>
    have : streamOf (x :: xs) = byteBits x ++ streamOf xs := rfl
    rw [this, List.length_append, byteBits_length, ih, List.length_cons]
    omega

/-- The bits still unread are the `remaining` ones (40_bitchannel.md R121). -/
theorem unread_length (b : BitChannel) : b.unread.length = b.remaining := by
  simp [BitChannel.unread, BitChannel.remaining]

/-- The header has 105 bits in dynamic mode and 137 in static mode (30_encoding.md R89). -/
theorem headerBits_length (h : Header) :
    h.bits.length = if h.dynamic = 0 then 137 else 105 := by
  unfold Header.bits
  split <;> simp

/-- `if FRAMES_DONE = T` changes the phase only (43_block_codec.md R219). -/
theorem endRun_cases (p : Phase) (s : State) :
    (s.framesDone = s.hdr.totalFrames.toNat ∧ s.endRun p = { s with phase := p }) ∨
      (s.framesDone ≠ s.hdr.totalFrames.toNat ∧ s.endRun p = s) := by
  by_cases h : s.framesDone = s.hdr.totalFrames.toNat
  · exact .inl ⟨h, by simp [State.endRun, h]⟩
  · exact .inr ⟨h, by simp [State.endRun, h]⟩

end Sys2Proof.Machine
end

