-- ==== Sys2Proof/Laws/Host.lean ====
section
/-!
SUPPORT. What a host move and a step can do.
-/

namespace Sys2Proof.Machine

/-- The turn list decides who moves; with none listed it is the core (log 1). -/
theorem nextTurn_cases (s : State) :
    (s.sched = [] ∧ s.nextTurn = (.core, s)) ∨
      (∃ t rest, s.sched = t :: rest ∧ s.nextTurn = (t, { s with sched := rest })) := by
  cases h : s.sched with
  | nil => exact .inl ⟨rfl, by simp [State.nextTurn, h]⟩
  | cons t rest => exact .inr ⟨t, rest, rfl, by simp [State.nextTurn, h]⟩

/-- The next turn takes nothing off the state but the turn. -/
theorem nextTurn_eq (s : State) : s.nextTurn.2 = { s with sched := s.sched.tail } := by
  cases h : s.sched with
  | nil =>
    have : s = { s with sched := [] } := by rw [← h]
    simp only [State.nextTurn, h, List.tail_nil]
    exact this
  | cons t rest => simp [State.nextTurn, h]

/-- A write of CMD issues the word or drops it (30_encoding.md R80). -/
theorem writeCmd_cases (v : Word) (s : State) :
    (s.err = true ∧ v ≠ 1#32 ∧ s.writeCmd v = s) ∨
      ((s.err = false ∨ v = 1#32) ∧ s.writeCmd v = s.issue v) := by
  by_cases h : s.err = true ∧ v ≠ 1#32
  · exact .inl ⟨h.1, h.2, by simp [State.writeCmd, h]⟩
  · refine .inr ⟨?_, by simp only [State.writeCmd, h, if_false]⟩
    rcases not_and_or.mp h with h | h
    · exact .inl (by simpa using h)
    · exact .inr (by simpa using h)

/-- The host's look at the core changes what the host has seen and, while BUSY = 1, the count of
draws; nothing of the core (20_memory.md R61, R76). -/
theorem hostRead_core (r : Reg) (s : State) :
    { s.hostRead r with seen := s.seen, draws := s.draws } = s := by
  unfold State.hostRead
  split <;> rfl

/-- The core's turn: idle, a decoded command, or a rejected word (30_encoding.md R81 to R83). -/
theorem coreTurn_cases (s : State) :
    (s.cur = none ∧ coreTurn s = .next s) ∨
      (∃ v i, s.cur = some v ∧ decode v = .ok i ∧ coreTurn s = exec i s) ∨
      (∃ v d, s.cur = some v ∧ decode v = .error d ∧
        coreTurn s = .next (s.raiseError (rejection d))) := by
  cases hc : s.cur with
  | none => exact .inl ⟨rfl, by simp [coreTurn, hc]⟩
  | some v =>
    cases hd : decode v with
    | ok i => exact .inr (.inl ⟨v, i, rfl, hd, by simp [coreTurn, hc, hd]⟩)
    | error d => exact .inr (.inr ⟨v, d, rfl, hd, by simp [coreTurn, hc, hd, rejectWord]⟩)

end Sys2Proof.Machine
end

