-- ==== Sys2Proof/Laws/PerInstr.lean ====
section
/-!
SUPPORT. The family `Encoding`: where each command's word holds its fields (30_encoding.md R84), one
lemma per constructor of `Instr`.
-/

namespace Sys2Proof.Laws.Encoding

/-- The word of a well-formed command has its opcode in bits 7:0, its `N` in bits 13:8 and zeros above
(30_encoding.md R84, 10_state.md R22). -/
def Statement (i : Instr) : Prop :=
  i.wf = true →
    opField (encode i) = opcodeOf i ∧ nField (encode i) = i.fieldN ∧ rsvdField (encode i) = 0

/-- The fields of a word built from an 8-bit opcode and a 6-bit `N`. -/
theorem fields_of_word {op n : Nat} (hop : op < 256) (hn : n < 64) :
    opField (BitVec.ofNat 32 (op + 256 * n)) = op ∧ nField (BitVec.ofNat 32 (op + 256 * n)) = n ∧
      rsvdField (BitVec.ofNat 32 (op + 256 * n)) = 0 := by
  have h : (BitVec.ofNat 32 (op + 256 * n)).toNat = op + 256 * n := by
    simp only [BitVec.toNat_ofNat]
    omega
  simp only [opField, nField, rsvdField, h]
  omega

/-- The statement for any command, its opcode being below 256. -/
theorem of_opcode {i : Instr} (hop : opcodeOf i < 256) : Statement i := fun hwf =>
  fields_of_word hop (by simpa [Instr.wf] using hwf)

theorem nop : Statement .nop := of_opcode (by decide)
theorem softReset : Statement .softReset := of_opcode (by decide)
theorem bcOpenWrite : Statement .bcOpenWrite := of_opcode (by decide)
theorem bcOpenRead : Statement .bcOpenRead := of_opcode (by decide)
theorem bcWriteBits (n : Nat) : Statement (.bcWriteBits n) := of_opcode (by simp [opcodeOf])
theorem bcWriteBit : Statement .bcWriteBit := of_opcode (by decide)
theorem bcReadBits (n : Nat) : Statement (.bcReadBits n) := of_opcode (by simp [opcodeOf])
theorem bcReadBit : Statement .bcReadBit := of_opcode (by decide)
theorem bcClose : Statement .bcClose := of_opcode (by decide)
theorem grConfig : Statement .grConfig := of_opcode (by decide)
theorem grEncU : Statement .grEncU := of_opcode (by decide)
theorem grDecU : Statement .grDecU := of_opcode (by decide)
theorem grEncS : Statement .grEncS := of_opcode (by decide)
theorem grDecS : Statement .grDecS := of_opcode (by decide)
theorem lpPredict (n : Nat) : Statement (.lpPredict n) := of_opcode (by simp [opcodeOf])
theorem sdToMs : Statement .sdToMs := of_opcode (by decide)
theorem sdToLr : Statement .sdToLr := of_opcode (by decide)
theorem blkEstimate : Statement .blkEstimate := of_opcode (by decide)
theorem blkEncodeNext : Statement .blkEncodeNext := of_opcode (by decide)
theorem blkDecodeNext : Statement .blkDecodeNext := of_opcode (by decide)
theorem hdrWrite : Statement .hdrWrite := of_opcode (by decide)
theorem hdrRead : Statement .hdrRead := of_opcode (by decide)
theorem encodeFile : Statement .encodeFile := of_opcode (by decide)
theorem decodeFile : Statement .decodeFile := of_opcode (by decide)

end Sys2Proof.Laws.Encoding
end

