-- ==== Sys2Proof/Machine/Script.lean ====
section
/-!
DEFINITION. Host programs: the script lines and pseudo-instructions of 30_encoding.md R110 and R111, and
how a host runs them, its loops included. A line is given by its parts, not by its text (log 17).
-/

namespace Sys2Proof.Machine

/-- One line of a host program (30_encoding.md R110). -/
inductive ScriptLine where
  /-- A command, with the values of ARG0, ARG1, ARG2 that its line gives, in that order. -/
  | command (i : Instr) (args : List Word)
  /-- `WRITE REG, v`, by the register's offset. -/
  | write (off : Nat) (v : Word)
  /-- `READ REG`, by the register's offset. -/
  | read (off : Nat)
  deriving DecidableEq, Repr

/-- What a host does next: one move, or a loop whose end it reads from STATUS. -/
inductive ScriptStep where
  /-- One move. -/
  | move (e : HostEvent)
  /-- `WAIT`: "a loop of `READ STATUS` until BUSY = 0" (30_encoding.md R111). -/
  | wait
  /-- `BLK_DECODE_NEXT` "repeated until PHASE = DEC_END", which the host reads from STATUS before each
  (30_encoding.md R111, 95_test_vectors.md program D). -/
  | decodeUntilEnd
  deriving DecidableEq, Repr

/-- A host register write. -/
def hostWrite (off : Nat) (v : Word) : ScriptStep := .move (.write off 4 v)

/-- `READ STATUS`. -/
def readStatus : HostEvent := .read 0x04 4

/-- A line: the operand writes, the command word, and the wait until BUSY = 0 (30_encoding.md R110). -/
def ScriptLine.steps : ScriptLine → List ScriptStep
  | .command i args =>
    List.zipWith hostWrite [0x08, 0x0C, 0x10] args ++ [hostWrite 0x00 (encode i), .wait]
  | .write off v => [hostWrite off v]
  | .read off => [.move (.read off 4)]

/-- The steps of a program. -/
def scriptSteps (ls : List ScriptLine) : List ScriptStep := ls.flatMap ScriptLine.steps

/-- `CONFIG rate, frames, bsize, ch, order, neg, dyn, m`: eight writes in register order
(30_encoding.md R111). -/
def scriptConfig (rate frames bsize ch order neg dyn m : Word) : List ScriptStep :=
  scriptSteps
    [.write 0x30 rate, .write 0x34 frames, .write 0x38 bsize, .write 0x3C ch, .write 0x40 order,
     .write 0x44 neg, .write 0x48 dyn, .write 0x4C m]

/-- `⌈totalFrames / blockSize⌉` (30_encoding.md R90, R111). With `blockSize = 0`, which HDR_WRITE
rejects, the quotient is not stated: 0 here (log 17). -/
def blockCount (totalFrames blockSize : Nat) : Nat := (totalFrames + blockSize - 1) / blockSize

/-- `ENCODE_STEPWISE` of a file of `totalFrames` frames in blocks of `blockSize`
(30_encoding.md R111). -/
def scriptEncodeStepwise (totalFrames blockSize : Nat) : List ScriptStep :=
  scriptSteps (.command .bcOpenWrite [] :: .command .hdrWrite []
    :: (List.replicate (blockCount totalFrames blockSize) (.command .blkEncodeNext [])
      ++ [.command .bcClose []]))

/-- `DECODE_STEPWISE` (30_encoding.md R111). -/
def scriptDecodeStepwise : List ScriptStep :=
  scriptSteps [.command .bcOpenRead [], .command .hdrRead []]
    ++ .decodeUntilEnd :: scriptSteps [.command .bcClose []]

/-- `WAIT` (30_encoding.md R111). -/
def scriptWait : List ScriptStep := [.wait]

/-- The move that a script step begins with: a loop begins with its `READ STATUS`. -/
def ScriptStep.firstMove : ScriptStep → HostEvent
  | .move e => e
  | .wait => readStatus
  | .decodeUntilEnd => readStatus

/-- BUSY of the STATUS word that the host read last (10_state.md R23). -/
def State.sawBusy (s : State) : Bool := s.seen.word.getLsbD 0

/-- Whether the STATUS word that the host read last shows PHASE = DEC_END (10_state.md R33). -/
def State.sawDecEnd (s : State) : Bool := s.seen.word.extractLsb' 18 3 == 4#3

/-- Go on from a step's next state, or end with its stop. -/
def thenRun (o : Host.Outcome State Fault Refusal)
    (k : State → Option (Host.Outcome State Fault Refusal)) :
    Option (Host.Outcome State Fault Refusal) :=
  match o with
  | .next t => k t
  | .fault r => some (.fault r)
  | .refused r => some (.refused r)

/-- The host's move, as the very next step. -/
def hostStep (e : HostEvent) (s : State) : Host.Outcome State Fault Refusal :=
  step { s with sched := .host e :: s.sched }

/-- Run a host program in at most `fuel` passes; `none` when they do not suffice, as for a loop that
never ends. Each pass is one host move. A loop that goes on after its `READ STATUS` does so: WAIT lets the
machine take its next turn, which is the core's when none is listed (log 1, 70_reset_and_hazards.md R360),
and the decode loop issues BLK_DECODE_NEXT (30_encoding.md R110, R111). -/
def runScript : Nat → List ScriptStep → State → Option (Host.Outcome State Fault Refusal)
  | _, [], s => some (.next s)
  | 0, _ :: _, _ => none
  | fuel + 1, p :: ps, s =>
    thenRun (hostStep p.firstMove s) fun t =>
      match p with
      | .move _ => runScript fuel ps t
      | .wait =>
        if t.sawBusy then thenRun (step t) (runScript fuel (.wait :: ps))
        else runScript fuel ps t
      | .decodeUntilEnd =>
        if t.sawDecEnd then runScript fuel ps t
        else runScript fuel ((ScriptLine.command .blkDecodeNext []).steps ++ .decodeUntilEnd :: ps) t

end Sys2Proof.Machine
end

