-- ==== Sys2Proof/Laws/Script.lean ====
section
/-!
SUPPORT. What one pass of a host program can do, and what a whole command line does on a core that is
ready: the command word is issued, the WAIT loop sees BUSY once, the core executes, and WAIT ends.
-/

namespace Sys2Proof.Machine

@[simp] theorem runScript_nil (fuel : Nat) (s : State) : runScript fuel [] s = some (.next s) := by
  cases fuel <;> rfl

@[simp] theorem thenRun_next (t : State) (k : State → Option (Host.Outcome State Fault Refusal)) :
    thenRun (.next t) k = k t := rfl

/-- A host step is the host's move: the turn it lists is taken off again (log 1). -/
@[simp] theorem hostStep_eq (e : HostEvent) (s : State) : hostStep e s = hostMove e s := rfl

theorem runScript_move (fuel : Nat) (e : HostEvent) (ps : List ScriptStep) (s : State) :
    runScript (fuel + 1) (.move e :: ps) s = thenRun (hostMove e s) (runScript fuel ps) := rfl

/-- STATUS shows BUSY for every draw (20_memory.md R75). -/
theorem statusBusy_busy (w : Word) : (statusBusy w).getLsbD 0 = true := by
  simp [statusBusy]

/-- STATUS of a core that is ready shows BUSY 0 (10_state.md R23). -/
theorem statusIdle_not_busy (s : State) : s.statusIdle.getLsbD 0 = false := by
  have h : s.statusIdle.toNat % 2 = 0 := by
    simp only [State.statusIdle, BitVec.toNat_ofNat]
    omega
  rw [← BitVec.testBit_toNat]
  simp [Nat.testBit_zero, h]

/-- `READ STATUS` as a step of the host. -/
@[simp] theorem hostMove_readStatus (s : State) : hostMove readStatus s = .next (s.hostRead .status) := rfl

/-- What the host sees of BUSY is BUSY (10_state.md R23, 20_memory.md R75). -/
@[simp] theorem hostRead_sawBusy (s : State) : (s.hostRead .status).sawBusy = s.busy := by
  by_cases h : s.busy = true
  · simp only [State.hostRead, h, if_true]
    exact statusBusy_busy _
  · simp only [State.hostRead, h]
    exact statusIdle_not_busy s

/-- WAIT on a core that is ready ends at its first `READ STATUS`. -/
theorem runScript_wait_ready (fuel : Nat) (ps : List ScriptStep) (s : State) (h : s.cur = none) :
    runScript (fuel + 1) (.wait :: ps) s = runScript fuel ps (s.hostRead .status) := by
  simp [runScript, ScriptStep.firstMove, State.busy, h]

/-- WAIT on a core with a command in flight lets the machine move, and waits on. -/
theorem runScript_wait_busy (fuel : Nat) (ps : List ScriptStep) (s : State) (h : s.cur.isSome = true) :
    runScript (fuel + 1) (.wait :: ps) s =
      thenRun (step (s.hostRead .status)) (runScript fuel (.wait :: ps)) := by
  simp [runScript, ScriptStep.firstMove, State.busy, h]

/-- The decode loop issues BLK_DECODE_NEXT until the STATUS it reads shows DEC_END. -/
theorem runScript_decode (fuel : Nat) (ps : List ScriptStep) (s : State) :
    runScript (fuel + 1) (.decodeUntilEnd :: ps) s =
      if (s.hostRead .status).sawDecEnd then runScript fuel ps (s.hostRead .status)
      else runScript fuel ((ScriptLine.command .blkDecodeNext []).steps ++ .decodeUntilEnd :: ps)
        (s.hostRead .status) := rfl

/-- With no turn listed, a command in flight is what the next step runs (log 1). -/
theorem step_core {s : State} {v : Word} {i : Instr} (hs : s.sched = []) (hc : s.cur = some v)
    (hd : decode v = .ok i) : step s = exec i s := by
  simp [step, State.nextTurn, hs, coreTurn, hc, hd]

/-- A look at STATUS leaves the command in flight and the turns. -/
@[simp] theorem hostRead_cur (r : Reg) (s : State) : (s.hostRead r).cur = s.cur := by
  unfold State.hostRead; split <;> rfl

@[simp] theorem hostRead_sched (r : Reg) (s : State) : (s.hostRead r).sched = s.sched := by
  unfold State.hostRead; split <;> rfl

/-- A command line without operands, on a ready core with no error and no turn listed: the word is
issued, `READ STATUS` shows BUSY once, the core executes, and WAIT goes on
(30_encoding.md R80, R81, R110). -/
theorem runScript_command (fuel : Nat) (i : Instr) (ps : List ScriptStep) (s : State)
    (hd : decode (encode i) = .ok i) (hc : s.cur = none) (he : s.error = none) (hs : s.sched = []) :
    runScript (fuel + 2) ((ScriptLine.command i []).steps ++ ps) s =
      thenRun (exec i ((s.issue (encode i)).hostRead .status)) (runScript fuel (.wait :: ps)) := by
  have hw : hostMove (.write 0x00 4 (encode i)) s = .next (s.issue (encode i)) := by
    change (if s.busy then _ else Host.Outcome.next (s.writeCmd (encode i))) = _
    simp [State.busy, hc, State.writeCmd, State.err, he]
  change runScript (fuel + 1 + 1) (.move (.write 0x00 4 (encode i)) :: .wait :: ps) s = _
  rw [runScript_move, hw, thenRun_next, runScript_wait_busy _ _ _ rfl,
    step_core (v := encode i) (by simp [State.issue, hs]) (by simp [State.issue]) hd]

end Sys2Proof.Machine
end

