-- ==== Sys2Proof/Tests/Slice0.lean ====
section
/-!
SUPPORT. Own tests: well-formedness, decoding of words written out from 30_encoding.md R84, one or two
steps per command with the results of 95_test_vectors.md, and a witness of the hypotheses of every
statement (`test_hyp_<Name>`).
-/

namespace Sys2Proof.Tests

open Sys2Proof Sys2Proof.Machine Sys2Proof.Claims

/-! ### Small states -/

/-- The next state of an outcome, if there is one. -/
def ran (o : Host.Outcome State Fault Refusal) : Option State :=
  match o with
  | .next t => some t
  | .fault _ => none
  | .refused _ => none

/-- STATUS after a step. -/
def statusAfter (o : Host.Outcome State Fault Refusal) : Option Word := (ran o).map State.statusIdle

/-- STATUS, RES0 and RES1 after a step. -/
def resultAfter (o : Host.Outcome State Fault Refusal) : Option (Word × Word × Word) :=
  (ran o).map fun t => (t.statusIdle, t.res0, t.res1)

/-- STATUS, BYTE_OUT and BC_STATE after a step. -/
def writtenAfter (o : Host.Outcome State Fault Refusal) : Option (Word × List Byte × Word) :=
  (ran o).map fun t => (t.statusIdle, t.bc.byteOut, t.bc.stateWord)

/-- STATUS, RES0 and `rdpos` after a step. -/
def readAfter (o : Host.Outcome State Fault Refusal) : Option (Word × Word × Nat) :=
  (ran o).map fun t => (t.statusIdle, t.res0, t.bc.rdpos)

/-- The reset state with operands in ARG0, ARG1, ARG2. -/
def withArgs (a b c : Word) (s : State) : State := { s with arg0 := a, arg1 := b, arg2 := c }

/-- The reset state with IO answers. -/
def answered (l : List Bool) : State := { State.reset with ioAnswers := l }

/-- A writer with a pending byte. -/
def writer (wpend : Byte) (wpos : Fin 8) : State :=
  { State.reset with bc := { BitChannel.reset with mode := .write, wpend := wpend, wpos := wpos } }

/-- A reader of `bs` at bit `rdpos`. -/
def reader (bs : List Byte) (rdpos : Nat) : State :=
  { State.reset with
    bc := { BitChannel.reset with
      mode := .read, byteIn := bs, rdpos := rdpos, count := BitVec.ofNat 32 (rdpos / 8) } }

/-- A state with a constructed coder. -/
def coder (m : Word) (scheme : Scheme) (s : State) : State := { s with grM := m, grNeg := scheme }

/-- The configuration of vector P1 (95_test_vectors.md 2.8). -/
def p1 : Header where
  sampleRate := 8000
  totalFrames := 5
  blockSize := 4
  channels := 1
  order := 1
  neg := 0
  dynamic := 0
  staticM := 2

/-- The configuration of vector P3. -/
def p3 : Header where
  sampleRate := 16000
  totalFrames := 2
  blockSize := 16
  channels := 1
  order := 3
  neg := 0
  dynamic := 1
  staticM := 0

/-- The configuration of vector P4, the empty file. -/
def p4 : Header where
  sampleRate := 48000
  totalFrames := 0
  blockSize := 1024
  channels := 1
  order := 0
  neg := 0
  dynamic := 1
  staticM := 0

/-- The PCM of P1. -/
def p1Pcm : List Sample := [10#16, 12#16, 11#16, 11#16, 0xFFFD#16]

/-- The PCM of P3: -5, 7. -/
def p3Pcm : List Sample := [0xFFFB#16, 7#16]

/-- The stream of P3. -/
def p3Bytes : List Byte :=
  [0x00#8, 0x00#8, 0x3e#8, 0x80#8, 0x00#8, 0x00#8, 0x00#8, 0x02#8, 0x00#8, 0x10#8, 0x01#8] ++
  [0x03#8, 0x00#8, 0x80#8, 0x00#8, 0x00#8, 0x00#8, 0xff#8, 0xdf#8, 0xff#8, 0x80#8]

/-- The stream of P4. -/
def p4Bytes : List Byte :=
  [0x00#8, 0x00#8, 0xbb#8, 0x80#8, 0x00#8, 0x00#8, 0x00#8, 0x00#8, 0x04#8, 0x00#8, 0x01#8] ++
  [0x00#8, 0x00#8, 0x80#8]

/-- A state configured with a header and a PCM_IN. -/
def configured (h : Header) (pcm : List Sample) (s : State) : State :=
  { s with cfg := h, pcmIn := pcm }

/-- P1's encode run before its second block, as program C has it: BC_STATE 0x2005. -/
def p1SecondBlock : State :=
  { writer 0x20#8 5 with
    phase := .encBlocks, hdr := p1, hdrValid := true, pcmIn := p1Pcm, framesDone := 4
    hist0 := [10, 12, 11, 11] }

/-- P1's decode run before its second block, with the last two bytes of the stream as BYTE_IN. -/
def p1LastBlock : State :=
  { reader [0x26#8, 0x80#8] 5 with
    phase := .decBlocks, hdr := p1, hdrValid := true, pcmOut := [10#16, 12#16, 11#16, 11#16]
    framesDone := 4, hist0 := [10, 12, 11, 11] }

/-- A state with a word in flight. -/
def inFlight (v : Word) : State := State.reset.issue v

/-- A state with a recorded error. -/
def erred : State := State.reset.raiseError .badHeader

/-! ### Well-formedness -/

theorem test_wf_refuses_wide_bit_count : (Instr.bcWriteBits 64).wf = false := by decide
theorem test_wf_refuses_wide_read_count : (Instr.bcReadBits 64).wf = false := by decide
theorem test_wf_refuses_wide_order : (Instr.lpPredict 64).wf = false := by decide
theorem test_wf_accepts_the_largest_field : (Instr.bcWriteBits 63).wf = true := by decide

/-! ### Decoding: every row of 30_encoding.md R84, by a word written out -/

theorem test_decode_nop : decode 0x00000000#32 = .ok .nop := by decide
theorem test_decode_softReset : decode 0x00000001#32 = .ok .softReset := by decide
theorem test_decode_bcOpenWrite : decode 0x00000010#32 = .ok .bcOpenWrite := by decide
theorem test_decode_bcOpenRead : decode 0x00000011#32 = .ok .bcOpenRead := by decide
theorem test_decode_bcWriteBits :
    decode 0b00000000000000000000110000010010#32 = .ok (.bcWriteBits 12) := by decide
theorem test_decode_bcWriteBit : decode 0x00000013#32 = .ok .bcWriteBit := by decide
theorem test_decode_bcReadBits : decode 0x00003F14#32 = .ok (.bcReadBits 63) := by decide
theorem test_decode_bcReadBit : decode 0x00000015#32 = .ok .bcReadBit := by decide
theorem test_decode_bcClose : decode 0x00000016#32 = .ok .bcClose := by decide
theorem test_decode_grConfig : decode 0x00000020#32 = .ok .grConfig := by decide
theorem test_decode_grEncU : decode 0x00000021#32 = .ok .grEncU := by decide
theorem test_decode_grDecU : decode 0x00000022#32 = .ok .grDecU := by decide
theorem test_decode_grEncS : decode 0x00000023#32 = .ok .grEncS := by decide
theorem test_decode_grDecS : decode 0x00000024#32 = .ok .grDecS := by decide
theorem test_decode_lpPredict :
    decode 0b00000000000000000000001100110000#32 = .ok (.lpPredict 3) := by decide
theorem test_decode_sdToMs : decode 0x00000031#32 = .ok .sdToMs := by decide
theorem test_decode_sdToLr : decode 0x00000032#32 = .ok .sdToLr := by decide
theorem test_decode_blkEstimate : decode 0x00000040#32 = .ok .blkEstimate := by decide
theorem test_decode_blkEncodeNext : decode 0x00000041#32 = .ok .blkEncodeNext := by decide
theorem test_decode_blkDecodeNext : decode 0x00000042#32 = .ok .blkDecodeNext := by decide
theorem test_decode_hdrWrite : decode 0x00000050#32 = .ok .hdrWrite := by decide
theorem test_decode_hdrRead : decode 0x00000051#32 = .ok .hdrRead := by decide
theorem test_decode_encodeFile : decode 0x00000052#32 = .ok .encodeFile := by decide
theorem test_decode_decodeFile : decode 0x00000053#32 = .ok .decodeFile := by decide

/-- The reserved words of 95_test_vectors.md 2.9. -/
theorem test_decode_rejects_by_name :
    decode 0x00000002#32 = .error .undefinedOpcode ∧ decode 0x000000FF#32 = .error .undefinedOpcode ∧
    decode 0x00004000#32 = .error .reservedBits ∧ decode 0x00000110#32 = .error .reservedBits := by
  decide

/-- The opcode is checked before the reserved bits (60_exceptions.md R308). -/
theorem test_decode_opcode_first : decode 0xFFFFFF02#32 = .error .undefinedOpcode := by decide

theorem test_encode_words :
    encode (.bcWriteBits 12) = 0x00000C12#32 ∧ encode .decodeFile = 0x00000053#32 ∧
    encode (.lpPredict 4) = 0x00000430#32 := by decide

theorem test_decodeTableWord : decodeTableWord 32 0x330 = some (.lpPredict 3) := by decide

/-! ### Steps: command words run from reset (95_test_vectors.md 2.9) -/

theorem test_step_nop : statusAfter (step (State.reset.withFetchWord 32 0x0)) = some 0x00000002#32 := by
  decide
theorem test_step_undefined :
    statusAfter (step (State.reset.withFetchWord 32 0x2)) = some 0x00000154#32 := by decide
theorem test_step_reserved_bits :
    statusAfter (step (State.reset.withFetchWord 32 0x4000)) = some 0x00000254#32 := by decide
theorem test_step_reserved_n :
    statusAfter (step (State.reset.withFetchWord 32 0x110)) = some 0x00000254#32 := by decide
theorem test_step_wrong_phase :
    statusAfter (step (State.reset.withFetchWord 32 0x41)) = some 0x00000554#32 := by decide
theorem test_step_bad_bit_count :
    statusAfter (step (State.reset.withFetchWord 32 0x2112)) = some 0x00000354#32 := by decide
theorem test_step_wrong_mode :
    statusAfter (step (State.reset.withFetchWord 32 0x2012)) = some 0x00000454#32 := by decide
theorem test_step_encode_file :
    statusAfter (step (State.reset.withFetchWord 32 0x52)) = some 0x00000414#32 := by decide

/-- With an error recorded a NOP is dropped and BUSY never rises (2.9). -/
theorem test_command_dropped :
    (ran (hostMove (.write 0x00 4 0#32) erred)).map State.busy = some false := by decide

/-- The SOFT_RESET word is taken with an error recorded (2.9). -/
theorem test_soft_reset_recovers :
    statusAfter (exec .softReset { erred with bc := { erred.bc with mode := .read } }) =
      some 0x00000002#32 := by decide

/-- The steps of a script line: operand write, command word, WAIT (30_encoding.md R110). -/
theorem test_script_line :
    (ScriptLine.command (.bcWriteBits 3) [5#32]).steps =
      [.move (.write 0x08 4 5#32), .move (.write 0x00 4 0x312#32), .wait] := by decide

/-- `⌈5 / 4⌉` blocks of P1, one of P3, none of P4 (2.8). -/
theorem test_block_count :
    blockCount 5 4 = 2 ∧ blockCount 2 16 = 1 ∧ blockCount 0 1024 = 0 := by decide

/-- WAIT ends only when STATUS shows BUSY 0: a NOP line leaves DONE 1 and nothing in flight
(30_encoding.md R110, R111). -/
theorem test_script_nop :
    ∃ t, runScript 3 (ScriptLine.command .nop []).steps State.reset = some (.next t) ∧
      t.cur = none ∧ t.done = true := by
  have h := runScript_command 1 .nop [] State.reset (by decide) rfl rfl rfl
  rw [List.append_nil] at h
  rw [h]
  exact ⟨_, rfl, rfl, rfl⟩

/-- The decode loop issues BLK_DECODE_NEXT until PHASE is DEC_END: once, for P1's last block
(30_encoding.md R111, 95_test_vectors.md 2.8). -/
theorem test_script_decode_loop :
    (runScript 5 [.decodeUntilEnd] p1LastBlock).bind
      (fun o => (ran o).map fun t => (t.pcmOut, t.phase)) = some (p1Pcm, .decEnd) := by
  rw [runScript_decode, show (p1LastBlock.hostRead .status).sawDecEnd = false by decide]
  simp only [Bool.false_eq_true, if_false]
  rw [runScript_command 2 .blkDecodeNext _ _ (by decide) rfl rfl rfl]
  decide +kernel

/-! ### BitChannel commands (95_test_vectors.md 2.1, program A) -/

theorem test_bcOpenWrite :
    writtenAfter (exec .bcOpenWrite (answered [true])) = some (0x00010002#32, [], 0#32) := by decide
theorem test_bcOpenWrite_fails :
    statusAfter (exec .bcOpenWrite (answered [false])) = some 0x00000144#32 := by decide
theorem test_bcOpenRead :
    readAfter (exec .bcOpenRead (answered [true])) = some (0x00020002#32, 0#32, 0) := by decide
theorem test_bcWriteBits :
    writtenAfter (exec (.bcWriteBits 12) (withArgs 0xFABC 0 0 (writer 0 0))) =
      some (0x00010002#32, [0xAB#8], 0xC004#32) := by decide
theorem test_bcWriteBits_pending :
    writtenAfter (exec (.bcWriteBits 3) (withArgs 5 0 0 (writer 0 0))) =
      some (0x00010002#32, [], 0xA003#32) := by decide
theorem test_bcWriteBit :
    writtenAfter (exec .bcWriteBit (withArgs 1 0 0 (writer 0xBA 7))) =
      some (0x00010002#32, [0xBB#8], 0#32) := by decide
theorem test_bcReadBits :
    readAfter (exec (.bcReadBits 12) (reader [0x05#8, 0x38#8] 0)) =
      some (0x00020002#32, 0x053#32, 12) := by decide
theorem test_bcReadBits_end :
    readAfter (exec (.bcReadBits 5) (reader [0x05#8, 0x38#8] 12)) =
      some (0x00020024#32, 0#32, 12) := by decide
theorem test_bcReadBit :
    readAfter (exec .bcReadBit (reader [0x80#8] 0)) = some (0x00020002#32, 1#32, 1) := by decide
theorem test_bcClose :
    writtenAfter (exec .bcClose { writer 0xA0 3 with ioAnswers := [true] }) =
      some (0x00030002#32, [0xA0#8], 0#32) := by decide
theorem test_bcClose_reader :
    statusAfter (exec .bcClose (reader [] 0)) = some 0x00030002#32 := by decide

/-! ### Coder commands (2.2 to 2.4, program B) -/

theorem test_grConfig :
    (ran (exec .grConfig (withArgs 0x7FFFFFFF 1 0 State.reset))).map (fun t => (t.grM, t.grNeg)) =
      some (0x7FFFFFFF#32, .signMagnitude) := by decide
theorem test_grConfig_bad :
    statusAfter (exec .grConfig (withArgs 0x80000000 0 0 State.reset)) = some 0x00000114#32 ∧
    statusAfter (exec .grConfig (withArgs 5 2 0 State.reset)) = some 0x00000514#32 := by decide
/-- `m = 3`, `u = 10`: 111010 (2.2). -/
theorem test_grEncU :
    writtenAfter (exec .grEncU (withArgs 10 0 0 (coder 3 .zigZag (writer 0 0)))) =
      some (0x00010002#32, [], 0xE806#32) := by decide
/-- `m = 5`, bits 10110: 8 (2.2). -/
theorem test_grDecU :
    readAfter (exec .grDecU (coder 5 .zigZag (reader [0xB0#8] 0))) =
      some (0x00020002#32, 8#32, 5) := by decide
/-- `m = 2^31 - 1`, ones: CODE_OVERFLOW at the third (2.2). -/
theorem test_grDecU_overflow :
    readAfter (exec .grDecU (coder 0x7FFFFFFF .zigZag (reader [0xFF#8] 0))) =
      some (0x00020334#32, 0#32, 3) := by decide +kernel
/-- `m = 3`, SignMagnitude, -5: 10111 (2.3). -/
theorem test_grEncS :
    writtenAfter (exec .grEncS (withArgs 0xFFFFFFFB 0 0 (coder 3 .signMagnitude (writer 0 0)))) =
      some (0x00010002#32, [], 0xB805#32) := by decide
/-- `m = 2^31 - 1`, SignMagnitude: +2^31 is out of INT32 (2.3). -/
theorem test_grDecS_range :
    statusAfter (exec .grDecS (coder 0x7FFFFFFF .signMagnitude
      (reader [0x80#8, 0#8, 0#8, 1#8, 0#8] 0))) = some 0x00020434#32 := by decide +kernel
/-- `m = 2^31 - 1`, SignMagnitude: -2^31 is in it (2.3). -/
theorem test_grDecS_least :
    (resultAfter (exec .grDecS (coder 0x7FFFFFFF .signMagnitude
      (reader [0x80#8, 0#8, 0#8, 1#8, 0x40#8] 0)))) =
      some (0x00020002#32, 0x80000000#32, 0#32) := by decide +kernel

/-! ### Predictor, stereo and estimator commands (2.5 to 2.7, program F) -/

theorem test_lpPredict :
    resultAfter (exec (.lpPredict 3) (withArgs 17 13 10 State.reset)) =
      some (0x00000002#32, 22#32, 0#32) := by decide
theorem test_lpPredict_wraps :
    resultAfter (exec (.lpPredict 2) (withArgs 0x7FFFFFFF 0 0 State.reset)) =
      some (0x00000002#32, 0xFFFFFFFE#32, 0#32) := by decide
theorem test_sdToMs :
    resultAfter (exec .sdToMs (withArgs 0xFFFF8000 32767 0 State.reset)) =
      some (0x00000002#32, 0xFFFFFFFF#32, 0xFFFF0001#32) := by decide
theorem test_sdToMs_floor :
    resultAfter (exec .sdToMs (withArgs 0xFFFFFFFD 4 0 State.reset)) =
      some (0x00000002#32, 0#32, 0xFFFFFFF9#32) := by decide
theorem test_sdToLr :
    resultAfter (exec .sdToLr (withArgs 99 0xFFFFFFFF 0 State.reset)) =
      some (0x00000002#32, 99#32, 100#32) := by decide
theorem test_blkEstimate :
    (ran (exec .blkEstimate (withArgs 16 0 10 State.reset))).map State.res0 = some 3#32 := by
  decide +kernel
theorem test_blkEstimate_wide :
    (ran (exec .blkEstimate (withArgs 0 1 1 State.reset))).map State.res0 = some 1000#32 := by
  decide +kernel

/-! ### Block and container commands (2.8, programs C and E) -/

theorem test_blkEncodeNext :
    writtenAfter (exec .blkEncodeNext p1SecondBlock) =
      some (0x00090002#32, [0x26#8], 0x8001#32) := by decide +kernel
theorem test_blkDecodeNext :
    (ran (exec .blkDecodeNext p1LastBlock)).map
      (fun t => (t.statusIdle, t.pcmOut, t.bc.rdpos)) =
      some (0x00120002#32, p1Pcm, 9) := by decide +kernel
theorem test_hdrWrite :
    (ran (exec .hdrWrite (configured p1 p1Pcm (writer 0 0)))).map
      (fun t => (t.statusIdle, t.bc.byteOut.length, t.bc.stateWord)) =
      some (0x00050002#32, 17, 0x0001#32) := by decide +kernel
theorem test_hdrRead :
    (ran (exec .hdrRead (reader p3Bytes 0))).map (fun t => (t.statusIdle, t.cfg, t.bc.rdpos)) =
      some (0x000E0002#32, p3, 105) := by decide +kernel
theorem test_encodeFile :
    (ran (exec .encodeFile (configured p3 p3Pcm (answered [true, true])))).map
      (fun t => (t.statusIdle, t.bc.byteOut)) = some (0x00030002#32, p3Bytes) := by decide +kernel
theorem test_encodeFile_empty :
    (ran (exec .encodeFile (configured p4 [] (answered [true, true])))).map
      (fun t => t.bc.byteOut) = some p4Bytes := by decide +kernel
theorem test_decodeFile :
    (ran (exec .decodeFile
      { answered [true] with bc := { BitChannel.reset with byteIn := p3Bytes } })).map
      (fun t => (t.statusIdle, t.pcmOut)) = some (0x00030002#32, p3Pcm) := by decide +kernel

/-- The grammar's bits of P3 are its stream (2.8): the format of Machine/Format.lean is not taken from
the commands. -/
theorem test_format : packBits (p3.fileBits p3Pcm) = p3Bytes := by decide +kernel

/-! ### Host moves -/

theorem test_host_write_reads_back :
    ((ran (hostMove (.write 0x38 4 0xABCD1234#32) State.reset)).map
      fun t => t.readReg .cfgBlockSize) = some 0x1234#32 := by decide

theorem test_host_write_while_busy :
    ran (hostMove (.write 0x08 4 0#32) (inFlight 0#32)) = none := by decide

/-- BUSY shows and nothing else does (20_memory.md R75), for any draw of BCMODE and PHASE. -/
theorem test_busy_status (w : Word) : statusBusy w &&& 0xFFE0FFFF#32 = 1#32 := by
  unfold statusBusy
  ext i hi
  simp only [BitVec.getElem_and, BitVec.getElem_or]
  interval_cases i <;> simp

theorem test_reset_status : State.reset.readReg .status = 0#32 := by decide

/-! ### Witnesses: states and operands that meet the hypotheses of the statements, clause by clause -/

/-- A word in flight with the turn listed, so that the core moves. -/
def coreNext (v : Word) : State := { inFlight v with sched := [.core] }

/-- What `nextTurn` leaves of it. -/
def coreNow (v : Word) : State := { inFlight v with sched := [] }

theorem test_hyp_DecodeInvertsEncode :
    (Instr.bcWriteBits 63).wf = true ∧ (Instr.lpPredict 0).wf = true := by decide

theorem test_hyp_EncodeInvertsDecode : decode 0x00003F12#32 = .ok (.bcWriteBits 63) := by decide

theorem test_hyp_DecodableWordsMatchOneTableRow :
    rowOf (.lpPredict 0) ∈ opcodeTable ∧
    0x00003F30#32 &&& (rowOf (.lpPredict 0)).maskBits = (rowOf (.lpPredict 0)).matchBits := by decide

/-- Every word can be in flight on the core's turn. -/
theorem test_hyp_core_turn (v : Word) :
    (coreNext v).nextTurn = (.core, coreNow v) ∧ (coreNow v).cur = some v := ⟨rfl, rfl⟩

/-- Every edge of the reserved ranges, and the opcodes beside them. -/
theorem test_hyp_OpcodeSelectsTheCommandOrRaises :
    decode 0x00000053#32 = .ok .decodeFile ∧
    (∀ op ∈ [0x02, 0x0F, 0x17, 0x1F, 0x25, 0x2F, 0x33, 0x3F, 0x43, 0x4F, 0x54, 0xFF], ReservedOp op) ∧
    (∀ op ∈ [0x01, 0x10, 0x16, 0x20, 0x24, 0x30, 0x32, 0x40, 0x42, 0x50, 0x53], ¬ ReservedOp op) ∧
    opField 0x12345602#32 = 0x02 ∧ opField 0x000000FF#32 = 0xFF := by
  exact ⟨by decide, by simp [ReservedOp], by simp [ReservedOp], by decide, by decide⟩

theorem test_hyp_ReservedBitsRaise :
    (rsvdField 0x00004000#32 ≠ 0 ∧ ¬ ReservedOp (opField 0x00004000#32)) ∧
    (rsvdField 0x80000012#32 ≠ 0 ∧ ¬ ReservedOp (opField 0x80000012#32)) ∧
    (opField 0x00000110#32 ∉ countedOps ∧ nField 0x00000110#32 ≠ 0) ∧
    (opField 0x00003F14#32 ∈ countedOps ∧ rsvdField 0x00003F14#32 = 0) := by decide

theorem test_hyp_StepRunsTheDecodedInstruction :
    ((coreNext 0#32).nextTurn = (.core, coreNow 0#32) ∧ (coreNow 0#32).cur = some 0#32 ∧
      decode 0#32 = .ok .nop) ∧
    (State.reset.nextTurn = (.core, State.reset) ∧ State.reset.cur = none ∧ State.reset.sched = []) ∧
    (({ State.reset with sched := [.host .takeBytes] } : State).nextTurn =
      (.host .takeBytes, State.reset)) ∧
    (coreNext 0#32).sched = [.core] ∧
    decode (BitVec.ofNat 32 (0x53 % 2 ^ 32)) = .ok .decodeFile := by decide

theorem test_hyp_CommandWriteIssuesOrIsDropped :
    State.reset.cur = none ∧ State.reset.error = none ∧ erred.cur = none ∧
    erred.error = some .badHeader ∧ 0x00004001#32 ≠ 0x00000001#32 := by decide

theorem test_hyp_RegisterWritesByKind :
    State.reset.cur = none ∧ (inFlight 0#32).cur.isSome = true ∧ 0 < 20 ∧ 19 < 20 := by decide

theorem test_hyp_RegisterReadsReturnTheValue : State.reset.cur = none := by decide

theorem test_hyp_AccessOutsideTheMapHasNoStep :
    (2 ≠ 4 ∧ 0x4F % 4 ≠ 0 ∧ 0x50 ≤ 0x50) ∧ (0x00 % 4 = 0 ∧ 0x00 < 0x50) ∧
    (0x4C % 4 = 0 ∧ 0x4C < 0x50) := by decide

theorem test_hyp_StatusFieldsHaveTheirPlaces :
    State.reset.error = none ∧ (erred.error = some .badHeader ∧ (.badHeader, 3, 6) ∈ errorTable) ∧
    ((writer 0xA0 3).bc.mode = .write ∧ (.write, 1) ∈ modeTable) ∧
    (p1SecondBlock.phase = .encBlocks ∧ (.encBlocks, 1) ∈ phaseTable) ∧
    (inFlight 0#32).cur.isSome = true ∧ (reader [0#8, 0#8] 15).bc.mode = .read ∧
    State.reset.bc.mode = .idle := by decide

theorem test_hyp_InputsAreStableDuringUse :
    (reader [] 0).bc.mode = .read ∧ p1SecondBlock.phase = .encBlocks ∧
    ({ p1SecondBlock with phase := .encEnd } : State).phase = .encEnd ∧
    State.reset.cur = none ∧ State.reset.bc.mode ≠ .read ∧
    State.reset.phase ≠ .encBlocks ∧ State.reset.phase ≠ .encEnd ∧
    (inFlight 0#32).cur.isSome = true := by decide

/-- The host can still move in the windows. -/
theorem test_hyp_InputsAreStable_moves :
    (∃ t, hostMove .hardReset (reader [] 0) = .next t) ∧
    (∃ t, hostMove .takeBytes p1SecondBlock = .next t) ∧
    (∃ t, hostMove .takeSamples (inFlight 0#32) = .next t) := ⟨⟨_, rfl⟩, ⟨_, rfl⟩, ⟨_, rfl⟩⟩

theorem test_hyp_ErrorEntryWritesStatusOnly :
    (.badM, 1, 1) ∈ errorTable ∧ (.wrongPhase, 5, 5) ∈ errorTable ∧
    Raise.badM.errcode = Raise.badM.errcode ∧ Raise.badM.detail = Raise.badM.detail := by decide

theorem test_hyp_CommandsEndInSuccessOrError :
    (coreNext 2#32).nextTurn = (.core, coreNow 2#32) ∧ (coreNow 2#32).cur = some 2#32 := ⟨rfl, rfl⟩

theorem test_hyp_CommandsRaiseOnlyTheirErrors :
    ∃ t, State.reset.error = none ∧ exec (.lpPredict 4) State.reset = .next t ∧
      t.error = some .badOrder := ⟨_, rfl, rfl, rfl⟩

/-- A dropped word, a host read, the SOFT_RESET word and hardware reset. -/
theorem test_hyp_ErrorsAreStickyUntilReset :
    (erred.cur = none ∧ 0x00004001#32 ≠ 0x00000001#32) ∧
    (∃ t, State.HandshakeInv { erred with sched := [.host .takeBytes] } ∧
      erred.error = some .badHeader ∧
      step { erred with sched := [.host .takeBytes] } = .next t ∧ t.error = some .badHeader) ∧
    (∃ t, State.HandshakeInv { erred with cur := some 1#32 } ∧
      step { erred with cur := some 1#32 } = .next t ∧ t.error = none) ∧
    (∃ t, step { erred with sched := [.host .hardReset] } = .next t ∧ t.error = none) :=
  ⟨by decide, ⟨_, by decide, rfl, rfl, rfl⟩, ⟨_, by decide, rfl, rfl⟩, ⟨_, rfl, rfl⟩⟩

theorem test_hyp_GuardsRaiseInOrder :
    (rangeOk (.bcWriteBits 33) = false ∧ rangeOk (.bcReadBits 33) = false ∧
      rangeOk (.lpPredict 4) = false) ∧
    (rangeOk (.bcWriteBits 32) = true ∧ rangeOk (.lpPredict 3) = true) ∧
    (p1SecondBlock.phase ∉ legalPhases (.bcWriteBits 32)) ∧
    (State.reset.phase ∈ legalPhases (.bcWriteBits 32) ∧
      State.reset.bc.mode ∉ legalModes (.bcWriteBits 32)) := by decide

/-- A row of the table: BC_CLOSE ends a run. -/
theorem test_hyp_PhaseChangesOnlyByItsTable :
    (∃ t, exec .bcClose { reader [] 0 with phase := .decEnd } = .next t ∧
      t.phase ≠ ({ reader [] 0 with phase := .decEnd } : State).phase) ∧
    (∃ t, exec .encodeFile (configured p4 [] (answered [true, true])) = .next t ∧ t.done = true) :=
  ⟨⟨_, rfl, by decide⟩, ⟨_, rfl, by decide +kernel⟩⟩

theorem test_hyp_OpenCommandsStartAnInstance :
    p1SecondBlock.phase ≠ .idle ∧
    ((writer 0 0).phase = .idle ∧ (writer 0 0).bc.mode = .write) ∧
    ((reader [] 0).phase = .idle ∧ (reader [] 0).bc.mode = .read) ∧
    ((answered [false]).phase = .idle ∧ (answered [false]).bc.mode = .idle ∧
      (answered [false]).ioOk = false) ∧
    (answered [true]).ioOk = true := by decide

theorem test_hyp_WriteCommandsPutTheirBits :
    32 < 33 ∧ 32 ≤ 32 ∧ p1SecondBlock.phase ≠ .idle ∧ State.reset.phase = .idle ∧
    State.reset.bc.mode ≠ .write ∧ (writer 0 0).phase = .idle ∧ (writer 0 0).bc.mode = .write := by
  decide

/-- Thirty-two bits to read, one bit too few, and none at all. -/
theorem test_hyp_ReadCommandsReturnTheNextBits :
    32 < 33 ∧ 32 ≤ 32 ∧ p1LastBlock.phase ≠ .idle ∧ State.reset.bc.mode ≠ .read ∧
    (reader [0xFF#8] 0).phase = .idle ∧ (reader [0xFF#8] 0).bc.mode = .read ∧
    (reader [0x05#8, 0x38#8, 0#8, 1#8] 1).bc.unread.length < 32 ∧ (reader [] 0).bc.unread = [] ∧
    0x05380001 < 2 ^ 32 ∧ binBits 0x05380001 32 <+: (reader [0x05#8, 0x38#8, 0#8, 1#8] 0).bc.unread ∧
    [true] <+: (reader [0x80#8] 0).bc.unread := by decide

theorem test_hyp_CloseFlushesAndReleases :
    (p1SecondBlock.phase = .encBlocks ∧ p1LastBlock.phase = .decBlocks) ∧
    (State.reset.phase ≠ .encBlocks ∧ State.reset.phase ≠ .decBlocks ∧ State.reset.bc.mode = .idle) ∧
    (reader [] 0).bc.mode = .read ∧ (writer 0 0).bc.mode = .write ∧
    ({ writer 0 0 with ioAnswers := [false] } : State).ioOk = false ∧
    ({ writer 0 0 with ioAnswers := [true] } : State).ioOk = true ∧
    (writer 0 0).bc.wpos = 0 ∧ (writer 0xA0 3).bc.wpos ≠ 0 := by decide

theorem test_hyp_WriteBitsAppendsToTheStream : PendingClean (writer 0xFE 7).bc := by decide

theorem test_hyp_FlushedStreamIsThePaddedBits :
    PendingClean (writer 0x80 1).bc ∧ PendingClean (writer 0 0).bc := by decide

theorem test_hyp_CodeParametersAreLeast : 1 ≤ 1 ∧ 5 ≤ 2 ^ 3 ∧ 1 ≤ codeBits 2 := by decide

theorem test_hyp_ZigZagIsTheXorFormAndABijection :
    (0 : Int) ≤ 0 ∧ (-1 : Int) < 0 ∧ InInt32 (-2147483648) ∧ InInt32 2147483647 ∧
    4294967295 ≤ 4294967295 ∧ 0 % 2 = 0 ∧ 1 % 2 = 1 := by decide

theorem test_hyp_GrConfigConstructsTheCoder :
    State.reset.arg0.toInt ≤ 0 ∧ 0 < (withArgs 1 2 0 State.reset).arg0.toInt ∧
    1 < (withArgs 1 2 0 State.reset).arg1.toNat ∧
    (withArgs 0x7FFFFFFF 0 0 State.reset).arg1 = 0#32 ∧
    0 < (withArgs 0x7FFFFFFF 1 0 State.reset).arg0.toInt ∧
    (withArgs 0x7FFFFFFF 1 0 State.reset).arg1 = 1#32 := by decide

theorem test_hyp_CoderGuardsInOrder :
    p1SecondBlock.phase ≠ .idle ∧ State.reset.phase = .idle ∧ State.reset.bc.mode ≠ .write ∧
    State.reset.bc.mode ≠ .read ∧ (writer 0 0).bc.mode = .write ∧ (writer 0 0).grM.toInt ≤ 0 ∧
    (reader [] 0).bc.mode = .read ∧ (reader [] 0).grM.toInt ≤ 0 := by decide

theorem test_hyp_EncodersWriteTheCodeWord :
    (coder 1 .zigZag (writer 0 0)).phase = .idle ∧ (coder 1 .zigZag (writer 0 0)).bc.mode = .write ∧
    0 < (coder 1 .zigZag (writer 0 0)).grM.toInt := by decide

/-- The code of 8 under `m = 5`, and of -5 under `m = 3` SignMagnitude (2.2, 2.3). -/
theorem test_hyp_DecodersInvertTheCodeWord :
    ((reader [0xB0#8] 0).phase = .idle ∧ (reader [0xB0#8] 0).bc.mode = .read ∧
      0 < (coder 5 .zigZag (reader [0xB0#8] 0)).grM.toInt ∧ 8 ≤ 4294967295 ∧
      ucode 5 8 <+: (reader [0xB0#8] 0).bc.unread) ∧
    (0 < (coder 3 .signMagnitude (reader [0xB8#8] 0)).grM.toInt ∧ InInt32 (-5) ∧
      scode 3 .signMagnitude (-5) <+: (reader [0xB8#8] 0).bc.unread) := by decide

theorem test_hyp_UnaryOverflowRaisesAtOnce :
    (reader [0xFF#8] 0).phase = .idle ∧ (reader [0xFF#8] 0).bc.mode = .read ∧
    0 < (coder 0x7FFFFFFF .zigZag (reader [0xFF#8] 0)).grM.toInt ∧ 1 ≤ 3 ∧
    (3 - 1) * (0x7FFFFFFF#32).toNat ≤ 4294967295 ∧ 4294967295 < 3 * (0x7FFFFFFF#32).toNat ∧
    List.replicate 3 true <+: (reader [0xFF#8] 0).bc.unread := by decide

/-- The failing codes of 95_test_vectors.md 2.2 and 2.3, one for each case: the unary part, the remainder
(`2·(2^31 - 1) + 2 = 2^32`), the sign bit, the data's end in a code, and before a sign bit. -/
theorem test_hyp_CodeFails :
    CodeFails 0x7FFFFFFF none (reader [0xFF#8] 0).bc.unread .codeOverflow 3 ∧
    CodeFails 0x7FFFFFFF none (reader [0xC0#8, 0#8, 0#8, 0#8, 0xC0#8] 0).bc.unread .codeOverflow 34 ∧
    CodeFails 0x7FFFFFFF (some .signMagnitude) (reader [0x80#8, 0#8, 0#8, 1#8, 0#8] 0).bc.unread
      .valueRange 34 ∧
    CodeFails 5 (some .zigZag) (reader [0xFF#8] 0).bc.unread .endOfStream 8 ∧
    CodeFails 1 (some .signMagnitude) (reader [0xFE#8] 0).bc.unread .endOfStream 8 :=
  ⟨.inl (by decide +kernel),
   .inr (.inl ⟨rfl, 2, 2, by decide +kernel⟩),
   .inr (.inr (.inl ⟨rfl, rfl, 2147483648, false, by decide +kernel⟩)),
   .inr (.inr (.inr (.inl ⟨rfl, 40, by decide⟩))),
   .inr (.inr (.inr (.inr ⟨rfl, rfl, 7, by decide⟩)))⟩

theorem test_hyp_LpPredictComputesThePrediction : 3 < 4 := by decide

theorem test_hyp_ResidualsAreBounded :
    InInt16 (-32768) ∧ InInt16 32767 ∧ 3 ≤ 3 ∧ |(-32768 : Int)| ≤ 32768 ∧ |(32767 : Int)| ≤ 32768 := by
  decide

theorem test_hyp_EstimatorIsTheExactFormula : 0 < 1 ∧ 1 ≤ 999 ∧ 999 < 1000 := by decide

theorem test_hyp_EstimateRangeAndGrowth : 5 ≤ 6 := by decide

theorem test_hyp_BlkEncodeNextWritesTheBlock :
    p1SecondBlock.phase = .encBlocks ∧ p1SecondBlock.bc.mode = .write := by decide

/-- P1's last block, sample -3 (2.8). -/
theorem test_hyp_BlkDecodeNextInvertsTheBlock :
    p1LastBlock.phase = .decBlocks ∧ p1LastBlock.bc.mode = .read ∧ p1LastBlock.hdr.Legal ∧
    p1LastBlock.framesDone < p1LastBlock.hdr.totalFrames.toNat ∧
    [0xFFFD#16].length =
      p1LastBlock.hdr.channels.toNat * p1LastBlock.hdr.blockLen p1LastBlock.framesDone ∧
    (p1LastBlock.hdr.dynamic = 0 → 2 = p1LastBlock.hdr.staticM.toNat) ∧
    p1LastBlock.hdr.blockBits 2 2
        (p1LastBlock.hdr.channelSamples [0xFFFD#16] 0
          (p1LastBlock.hdr.blockLen p1LastBlock.framesDone)).1
        (p1LastBlock.hdr.channelSamples [0xFFFD#16] 0
          (p1LastBlock.hdr.blockLen p1LastBlock.framesDone)).2 <+: p1LastBlock.bc.unread := by
  decide +kernel

theorem test_hyp_FailedReadsMoveOnlyTheCursor :
    ∃ t, readsStream .bcReadBit = true ∧ exec .bcReadBit (reader [] 0) = .next t ∧ t.done = false :=
  ⟨_, rfl, rfl, rfl⟩

/-- Each check of the configuration, failing first, on both commands' starts. -/
theorem test_hyp_ConfigurationIsCheckedInOrder :
    (StartsEncoding .hdrWrite (writer 0 0) ∧ StartsEncoding .encodeFile State.reset) ∧
    (State.reset.cfg.blockSize = 0) ∧
    (p1.blockSize ≠ 0 ∧ ({ p1 with channels := 3 } : Header).channels ≠ 1 ∧
      ({ p1 with channels := 3 } : Header).channels ≠ 2) ∧
    (p1.channels = 1 ∧ 3 < ({ p1 with order := 4 } : Header).order.toNat) ∧
    (({ p1 with order := 3 } : Header).order.toNat ≤ 3 ∧
      1 < ({ p1 with neg := 2 } : Header).neg.toNat) ∧
    (({ p1 with neg := 1 } : Header).neg.toNat ≤ 1 ∧ p1.dynamic = 0 ∧
      ({ p1 with staticM := 0 } : Header).staticM.toInt ≤ 0) ∧
    (p1.Legal ∧ ([] : List Sample).length ≠ p1.channels.toNat * p1.totalFrames.toNat) := by decide

theorem test_hyp_HdrWriteStartsTheRun :
    (configured p1 p1Pcm (writer 0 0)).phase = .idle ∧
    (configured p1 p1Pcm (writer 0 0)).bc.mode = .write ∧
    ConfigOk (configured p1 p1Pcm (writer 0 0)) ∧ ConfigOk (configured p4 [] (writer 0 0)) := by decide

/-- A header with three channels (2.8), a static header with divisor 0, no data, and a static header that
ends in its divisor. -/
theorem test_hyp_HdrRead_raises :
    (({ p4 with channels := 3 } : Header).channels ≠ 1 ∧ ({ p4 with channels := 3 } : Header).channels ≠ 2 ∧
      ({ p4 with channels := 3 } : Header).bits <+:
        (reader (packBits ({ p4 with channels := 3 } : Header).bits) 0).bc.unread) ∧
    (({ p1 with staticM := 0 } : Header).blockSize ≠ 0 ∧ p1.channels = 1 ∧ p1.order.toNat ≤ 3 ∧
      p1.neg.toNat ≤ 1 ∧ p1.dynamic = 0 ∧ ({ p1 with staticM := 0 } : Header).staticM.toInt ≤ 0 ∧
      ({ p1 with staticM := 0 } : Header).bits <+:
        (reader (packBits ({ p1 with staticM := 0 } : Header).bits) 0).bc.unread) ∧
    (reader [] 0).bc.unread.length < 105 ∧
    ((reader ((packBits p1.bits).take 17) 0).bc.unread.length < 137 ∧
      (reader ((packBits p1.bits).take 17) 0).bc.unread.getD 104 true = false) := by decide +kernel

theorem test_hyp_HdrReadStartsTheRun :
    (reader p4Bytes 0).phase = .idle ∧ (reader p4Bytes 0).bc.mode = .read ∧ p4.Legal ∧
    p4.bits <+: (reader p4Bytes 0).bc.unread ∧ p3.bits <+: (reader p3Bytes 0).bc.unread := by
  decide +kernel

theorem test_hyp_EncodeFileWritesTheStream :
    (configured p3 p3Pcm (answered [true, true])).phase = .idle ∧
    (configured p3 p3Pcm (answered [true, true])).bc.mode = .idle ∧
    ConfigOk (configured p3 p3Pcm (answered [true, true])) ∧
    (configured p3 p3Pcm (answered [true, true])).ioOk = true ∧
    (configured p3 p3Pcm (answered [true, true])).afterDraw.ioOk = true := by decide

theorem test_hyp_FileCommandsReportIoFailures :
    ((answered [false]).phase = .idle ∧ (answered [false]).bc.mode = .idle ∧
      (answered [false]).ioOk = false) ∧
    (ConfigOk (configured p3 p3Pcm (answered [true, false])) ∧
      (answered [true, false]).ioOk = true ∧ (answered [true, false]).afterDraw.ioOk = false) := by
  decide

/-- P3's stream with a byte after it (2.8). -/
theorem test_hyp_DecodeFileReadsTheStream :
    (answered [true]).phase = .idle ∧ (answered [true]).bc.mode = .idle ∧
    (answered [true]).ioOk = true ∧ p3.Legal ∧
    p3Pcm.length = p3.channels.toNat * p3.totalFrames.toNat ∧
    p3Bytes ++ [0xAA#8] = packBits (p3.fileBits p3Pcm) ++ [0xAA#8] := by decide +kernel

theorem test_hyp_FileRoundTripIsLossless :
    ∃ t, exec .encodeFile (configured p4 [] (answered [true, true])) = .next t ∧
      ConfigOk (configured p4 [] (answered [true, true])) ∧
      (configured p4 [] (answered [true, true])).afterDraw.ioOk = true ∧
      ({ answered [true] with bc := { BitChannel.reset with byteIn := p4Bytes } } : State).bc.byteIn =
        t.bc.byteOut := ⟨_, rfl, by decide, by decide, by decide +kernel⟩

/-- The invariant holds at reset and inside runs of both kinds, and they step. -/
theorem test_hyp_StepKeepsTheInvariant :
    p1LastBlock.bc.Inv ∧ p1LastBlock.RunInv ∧ p1LastBlock.HandshakeInv ∧
    (∃ t, step p1LastBlock = .next t) :=
  ⟨by decide, by decide, by decide, _, rfl⟩

theorem test_reset_bitchannel_inv : State.reset.bc.Inv := by decide
theorem test_reset_run_inv : State.reset.RunInv := by decide

theorem test_hyp_CommandsWriteOnlyTheirRegisters :
    (∃ t, exec .grConfig State.reset = .next t) ∧ Instr.grConfig ≠ .softReset ∧
    Instr.bcOpenWrite ∉ [Instr.softReset, .grConfig] ∧
    Instr.hdrWrite ∉ [Instr.softReset, .hdrRead, .decodeFile] ∧
    Instr.grConfig ∉ [Instr.softReset, .hdrWrite, .hdrRead, .encodeFile, .decodeFile] ∧
    Instr.bcClose ∉ [Instr.softReset, .hdrWrite, .hdrRead, .blkEncodeNext, .blkDecodeNext, .encodeFile,
      .decodeFile] ∧
    Instr.hdrWrite ∉ [Instr.softReset, .bcOpenWrite, .bcOpenRead, .bcClose, .encodeFile, .decodeFile] ∧
    Instr.softReset ∉ [Instr.bcOpenWrite, .bcOpenRead, .bcClose, .encodeFile, .decodeFile] :=
  ⟨⟨_, rfl⟩, by decide⟩

theorem test_hyp_OutputStreamsOnlyGrow :
    ∃ t, exec .bcClose { writer 0xA0 3 with ioAnswers := [true] } = .next t ∧
      (writer 0xA0 3).bc.durable = false ∧ t.bc.durable = true :=
  ⟨_, rfl, rfl, by decide⟩

theorem test_hyp_ResultsAreWrittenOnSuccessOnly :
    ∃ t, exec (.lpPredict 4) State.reset = .next t ∧ t.done = false ∧ writesRes0 .nop = false :=
  ⟨_, rfl, rfl, rfl⟩

theorem test_hyp_BlockCommandsIgnoreTheConfiguration :
    (∃ t, exec .blkEncodeNext p1SecondBlock = .next t) ∧
    (∃ t, exec .blkDecodeNext p1LastBlock = .next t) := ⟨⟨_, rfl⟩, ⟨_, rfl⟩⟩

/-- A block of a dynamic stereo file at its first bit. -/
def stereoBlock (bs : List Byte) : State :=
  { reader bs 0 with phase := .decBlocks, hdr := { p3 with channels := 2, totalFrames := 1 } }

/-- A block of a static file with one frame, at its first bit. -/
def staticBlock (channels neg : BitVec 8) (m : Word) (bs : List Byte) : State :=
  { reader bs 0 with
    phase := .decBlocks
    hdr := { p1 with channels := channels, neg := neg, staticM := m, order := 0, totalFrames := 1 } }

/-- The parameter fields: too short, zero, and the same of the second one. -/
theorem test_hyp_BlkDecodeNextRaises_params :
    (stereoBlock []).phase = .decBlocks ∧ (stereoBlock []).bc.mode = .read ∧ (stereoBlock []).hdr.Legal ∧
    (stereoBlock []).hdr.dynamic = 1 ∧ (stereoBlock []).hdr.channels = 2 ∧
    (stereoBlock [0#8, 0#8, 0#8]).bc.unread.length < 32 ∧ (0x80000000#32).toInt ≤ 0 ∧
    binBits (0x80000000#32).toNat 32 <+: (stereoBlock [0x80#8, 0#8, 0#8, 0#8]).bc.unread ∧
    binBits 1 32 <+: (stereoBlock [0#8, 0#8, 0#8, 1#8, 0#8]).bc.unread ∧
    (stereoBlock [0#8, 0#8, 0#8, 1#8, 0#8]).bc.unread.length < 64 ∧
    binBits 1 32 ++ binBits 0 32 <+:
      (stereoBlock [0#8, 0#8, 0#8, 1#8, 0#8, 0#8, 0#8, 0#8]).bc.unread := by decide +kernel

/-- A warmup sample 32768 under static `m = 2^16` (2.8), and a block with no data. -/
theorem test_hyp_BlkDecodeNextRaises_samples :
    DivisorsOk (staticBlock 1 0 65536 []).hdr 65536 65536 ∧
    InBlock (staticBlock 1 0 65536 []).hdr 1 65536 65536 [] 65536 (-32768) 32767 [] ∧
    (staticBlock 1 0 65536 []).bc.unread = [] ++ [] ∧
    CodeFails 65536 (some (staticBlock 1 0 65536 []).hdr.scheme) [] .endOfStream 0 ∧
    InInt32 32768 ∧ nextSample (staticBlock 1 0 65536 []).hdr 1 [] 32768 = 32768 ∧
    [] ++ scode 65536 (staticBlock 1 0 65536 []).hdr.scheme 32768 <+:
      (staticBlock 1 0 65536 [0x80#8, 0#8, 0#8]).bc.unread :=
  ⟨by decide, ⟨by decide, by decide, .inl (by decide)⟩, by decide,
   .inr (.inr (.inr (.inl ⟨rfl, 0, by decide +kernel⟩))), by decide, by decide, by decide +kernel⟩

/-- The side channel's first sample, after a mid channel of one sample 0 under `m = 1`. -/
theorem test_hyp_BlkDecodeNextRaises_side :
    InBlock (staticBlock 2 0 1 []).hdr 1 1 1 [false] 1 (-65535) 65535 [] :=
  ⟨by decide, by decide, .inr ⟨rfl, rfl, rfl, rfl, [0], by decide⟩⟩

/-- Mid 32767 and side -65535 give R = 65535 (2.8). -/
theorem test_hyp_BlkDecodeNextRaisesInStreamOrder :
    (staticBlock 2 1 70000 []).hdr.Legal ∧ DivisorsOk (staticBlock 2 1 70000 []).hdr 70000 70000 ∧
    (staticBlock 2 1 70000 []).hdr.channels = 2 ∧
    [32767].length = (staticBlock 2 1 70000 []).hdr.blockLen 0 ∧
    (∀ x ∈ [32767], InInt16 x) ∧ (∀ x ∈ ([-65535] : List Int), -65535 ≤ x ∧ x ≤ 65535) ∧
    ¬ InInt16 (toLeftRight 32767 (-65535)).2 ∧
    (staticBlock 2 1 70000 []).hdr.blockBits 70000 70000 [32767] [-65535] <+:
      (staticBlock 2 1 70000 (packBits
        ((staticBlock 2 1 70000 []).hdr.blockBits 70000 70000 [32767] [-65535]))).bc.unread := by
  decide +kernel

end Sys2Proof.Tests
end

section
/-!
What a command body leaves alone, as a projection of the state: `Keeps f c` says that however `c` ends,
`f` reads the same as before. One lemma per building block and per shared body, for every projection that
does not see what that body writes.
-/

namespace Sys2Proof.Machine

variable {σ α β γ : Type}

/-- `f` reads the same before and after every run of `c`, whether `c` succeeds or raises. -/
def Keeps (f : σ → γ) (c : EStateM Raise σ α) : Prop := Relates (fun s t => f t = f s) c

/-! ### Building blocks -/

namespace Keeps

theorem of_ok {f : σ → γ} {c : EStateM Raise σ α} (h : Keeps f c) {s t : σ} {a : α}
    (hc : c s = .ok a t) : f t = f s := by
  have hs : f (endState (c s)) = f s := h s
  rwa [hc] at hs

theorem of_error {f : σ → γ} {c : EStateM Raise σ α} (h : Keeps f c) {s t : σ} {e : Raise}
    (hc : c s = .error e t) : f t = f s := by
  have hs : f (endState (c s)) = f s := h s
  rwa [hc] at hs

theorem bind {f : σ → γ} {x : EStateM Raise σ α} {k : α → EStateM Raise σ β} (hx : Keeps f x)
    (hk : ∀ a, Keeps f (k a)) : Keeps f (x >>= k) :=
  Relates.bind (fun _ _ _ hab hbc => hbc.trans hab) hx hk

theorem pure (f : σ → γ) (a : α) : Keeps f (Pure.pure a : EStateM Raise σ α) := fun _ => rfl

theorem get (f : σ → γ) : Keeps f (MonadState.get : EStateM Raise σ σ) := fun _ => rfl

theorem raiseIf (f : σ → γ) (c : Prop) [Decidable c] (e : Raise) :
    Keeps f (Machine.raiseIf c e : EStateM Raise σ Unit) :=
  Relates.raiseIf (R := fun s t => f t = f s) (fun _ => rfl) c e

theorem ite {f : σ → γ} {c : Prop} [Decidable c] {x y : EStateM Raise σ α} (hx : Keeps f x)
    (hy : Keeps f y) : Keeps f (if c then x else y) := Relates.ite hx hy

theorem needPhase (f : State → γ) (ps : List Phase) : Keeps f (Machine.needPhase ps) :=
  Relates.needPhase (R := fun s t => f t = f s) (fun _ => rfl) ps

theorem needMode (f : State → γ) (ms : List BcMode) : Keeps f (Machine.needMode ms) :=
  Relates.needMode (R := fun s t => f t = f s) (fun _ => rfl) ms

theorem change {f : State → γ} {g : State → State} (h : ∀ s, f (g s) = f s) :
    Keeps f (Machine.change g) := Relates.change h

/-- A reader writes the BitChannel only (20_memory.md R76). -/
theorem onChannel {f : State → γ} (hbc : ∀ s b, f { s with bc := b } = f s) (r : Reader α) :
    Keeps f (Machine.onChannel r) :=
  Relates.onChannel (Q := fun _ _ => True) (fun _ => trivial) fun s b _ => hbc s b

/-- A writer writes the BitChannel only (20_memory.md R64). -/
theorem writeChannel {f : State → γ} (hbc : ∀ s b, f { s with bc := b } = f s)
    (w : State → BitChannel) : Keeps f (Machine.change fun s => { s with bc := w s }) :=
  .change fun s => hbc s (w s)

/-! ### Shared bodies -/

/-- After the phase and mode guards a command keeps what the rest of its body keeps
(60_exceptions.md R308). -/
theorem guarded {f : State → γ} {body : Cmd Unit} (ps : List Phase) (ms : List BcMode)
    (hbody : Keeps f body) :
    Keeps f (do Machine.needPhase ps; Machine.needMode ms; body) :=
  .bind (.needPhase f ps) fun _ => .bind (.needMode f ms) fun _ => hbody

/-- The guards of the coding commands write nothing (41_golomb.md R156). -/
theorem needCoder (f : State → γ) (m : BcMode) : Keeps f (Machine.needCoder m) :=
  .bind (.needPhase f _) fun _ => .bind (.needMode f _) fun _ => .bind (.get f) fun _ => .raiseIf f _ _

/-- `ValidateCfg()` writes nothing (44_container.md R250). -/
theorem validateCfg (f : State → γ) : Keeps f Machine.validateCfg :=
  .bind (.get f) fun _ => .bind (.raiseIf f _ _) fun _ => .bind (.raiseIf f _ _) fun _ =>
    .bind (.raiseIf f _ _) fun _ => .bind (.raiseIf f _ _) fun _ => .bind (.raiseIf f _ _) fun _ =>
      .raiseIf f _ _

theorem whilePhase {f : State → γ} {body : Cmd Unit} (hbody : Keeps f body) (p : Phase)
    (fuel : Nat) : Keeps f (Machine.whilePhase p body fuel) := by
  induction fuel with
  | zero => exact .pure f ()
  | succ fuel ih => exact .bind (.get f) fun _ => .ite (.bind hbody fun _ => ih) (.pure f _)

theorem allBlocks {f : State → γ} {body : Cmd Unit} (hbody : Keeps f body) (p : Phase) :
    Keeps f (Machine.allBlocks p body) :=
  .bind (.get f) fun _ => whilePhase hbody p _

section Io
variable {f : State → γ} (hbc : ∀ s b, f { s with bc := b } = f s)
  (hdraw : ∀ s, f s.afterDraw = f s)
include hbc hdraw

/-- Opening a writer takes the draw and writes the BitChannel (40_bitchannel.md R122). -/
theorem openWriteBody : Keeps f Machine.openWriteBody :=
  .bind hdraw fun _ => .bind (.raiseIf f _ _) fun _ => .writeChannel hbc _

/-- Opening a reader takes the draw and writes the BitChannel (40_bitchannel.md R123). -/
theorem openReadBody : Keeps f Machine.openReadBody :=
  .bind hdraw fun _ => .bind (.raiseIf f _ _) fun _ => .writeChannel hbc _

theorem closeWriter : Keeps f Machine.closeWriter :=
  .bind (.writeChannel hbc _) fun _ => .bind hdraw fun _ => .bind (.raiseIf f _ _) fun _ =>
    .writeChannel hbc _

theorem closeSink : Keeps f Machine.closeSink :=
  .bind (.get f) fun _ => .ite (closeWriter hbc hdraw) (.pure f ())

/-- A close writes the BitChannel and the phase besides the draw (40_bitchannel.md R129). -/
theorem closeBody (hphase : ∀ s p, f { s with phase := p } = f s) : Keeps f Machine.closeBody :=
  .guarded _ _ <| .bind (closeSink hbc hdraw) fun _ =>
    .change fun s => (hphase { s with bc := { s.bc with mode := .closed } } .idle).trans (hbc s _)

end Io
end Keeps

/-- What a command keeps is what its body keeps, if ending the command does not touch it
(30_encoding.md R81, 60_exceptions.md R313). -/
theorem Keeps.execute {f : State → γ} {body : Cmd Unit} (hbody : Keeps f body)
    (hsucceed : ∀ s, f s.succeed = f s) (hraise : ∀ e s, f (s.raiseError e) = f s) {s t : State}
    (h : Machine.execute body s = .next t) : f t = f s := by
  rw [execute_next h]
  rcases settle_cases (body s) with ⟨u, hu, hsettle⟩ | ⟨e, u, hu, hsettle⟩
    <;> rw [hsettle]
  · exact (hsucceed u).trans (hbody.of_ok hu)
  · exact (hraise e u).trans (hbody.of_error hu)

end Sys2Proof.Machine
end

section
/-!
The result registers (10_state.md R30): every body either keeps both, or writes RES0 as its last act, so
that nothing can raise after the write.
-/

namespace Sys2Proof.Machine

open Sys2Proof.Claims

variable {α β : Type}

/-- RES0 and RES1 (10_state.md R30). -/
def State.results (s : State) : Word × Word := (s.res0, s.res1)

theorem State.results_eq_iff {s t : State} :
    t.results = s.results ↔ t.res0 = s.res0 ∧ t.res1 = s.res1 := Prod.mk_inj

theorem State.results_endRun (p : Phase) (s : State) : (s.endRun p).results = s.results := by
  rcases endRun_cases p s with ⟨_, h⟩ | ⟨_, h⟩
  · rw [h]; rfl
  · rw [h]

/-! ### Bodies that write no result -/

theorem encodeNextBody_keeps_results : Keeps State.results encodeNextBody :=
  .change fun _ => State.results_endRun _ _

theorem decodeNextBody_keeps_results : Keeps State.results decodeNextBody :=
  .bind (.get _) fun _ => .bind (.onChannel (fun _ _ => rfl) _) fun _ =>
    .change fun _ => State.results_endRun _ _

theorem headerWriteBody_keeps_results : Keeps State.results headerWriteBody :=
  .bind (.validateCfg _) fun _ => .change fun _ => rfl

theorem headerReadBody_keeps_results : Keeps State.results headerReadBody :=
  .bind (.onChannel (fun _ _ => rfl) _) fun _ => .bind (.onChannel (fun _ _ => rfl) _) fun _ =>
    .change fun _ => rfl

theorem openWriteBody_keeps_results : Keeps State.results openWriteBody :=
  .openWriteBody (fun _ _ => rfl) fun _ => rfl

theorem openReadBody_keeps_results : Keeps State.results openReadBody :=
  .openReadBody (fun _ _ => rfl) fun _ => rfl

theorem closeBody_keeps_results : Keeps State.results closeBody :=
  .closeBody (fun _ _ => rfl) (fun _ => rfl) fun _ _ => rfl

theorem execute_results {body : Cmd Unit} {s t : State} (h : execute body s = .next t)
    (hbody : Keeps State.results body) : t.results = s.results :=
  hbody.execute (fun _ => rfl) (fun _ _ => rfl) h

/-! ### Bodies that write RES0 -/

/-- `c` keeps both results when it raises, and RES1 when it succeeds. -/
structure WritesRes0OnSuccess (c : Cmd α) : Prop where
  of_ok : ∀ {s t a}, c s = .ok a t → t.res1 = s.res1
  of_error : ∀ {s t e}, c s = .error e t → t.results = s.results

theorem WritesRes0OnSuccess.bind {x : Cmd α} {k : α → Cmd β} (hx : Keeps State.results x)
    (hk : ∀ a, WritesRes0OnSuccess (k a)) : WritesRes0OnSuccess (x >>= k) where
  of_ok {s t b} h := by
    rw [bind_apply] at h
    cases hxs : x s with
    | ok a u =>
      rw [hxs] at h
      exact ((hk a).of_ok h).trans (State.results_eq_iff.mp (hx.of_ok hxs)).2
    | error e u => rw [hxs] at h; cases h
  of_error {s t e} h := by
    rw [bind_apply] at h
    cases hxs : x s with
    | ok a u =>
      rw [hxs] at h
      exact ((hk a).of_error h).trans (hx.of_ok hxs)
    | error e u =>
      rw [hxs] at h
      cases h
      exact hx.of_error hxs

/-- The write of RES0 itself cannot raise. -/
theorem WritesRes0OnSuccess.write (v : State → Word) :
    WritesRes0OnSuccess (change fun s => { s with res0 := v s }) where
  of_ok h := by cases h; rfl
  of_error h := by cases h

/-- A read followed by the write of what it read. -/
theorem WritesRes0OnSuccess.readThenWrite (r : Reader α) (v : α → Word) :
    WritesRes0OnSuccess (onChannel r >>= fun a => change fun s => { s with res0 := v a }) :=
  .bind (.onChannel (fun _ _ => rfl) r) fun _ => .write _

/-- Such a body, run as a command, keeps both results, or succeeds and keeps RES1. -/
theorem execute_res0 {body : Cmd Unit} {s t : State} (h : execute body s = .next t)
    (hbody : WritesRes0OnSuccess body) :
    t.results = s.results ∨ t.done = true ∧ t.res1 = s.res1 := by
  rw [execute_next h]
  rcases settle_cases (body s) with ⟨u, hu, hsettle⟩ | ⟨e, u, hu, hsettle⟩ <;> rw [hsettle]
  · exact .inr ⟨rfl, (hbody.of_ok hu : u.res1 = s.res1)⟩
  · exact .inl (hbody.of_error hu : u.results = s.results)

/-! ### Over every command -/

/-- A command whose whole body is one change succeeds. -/
theorem execute_change_done {f : State → State} {s t : State}
    (h : execute (change f) s = .next t) : t.done = true := by
  rw [execute_next h]
  rfl

/-- The commands that read a value or predict: RES0 is written, and only on success
(30_encoding.md R84). -/
theorem exec_res0 {i : Instr} (hres0 : writesRes0 i = true) (hms : i ≠ .sdToMs) (hlr : i ≠ .sdToLr)
    {s t : State} (h : exec i s = .next t) :
    t.results = s.results ∨ t.done = true ∧ t.res1 = s.res1 := by
  cases i with
  | bcReadBits n =>
    exact execute_res0 h (.bind (.raiseIf _ _ _) fun _ => .bind (.needPhase _ _) fun _ =>
      .bind (.needMode _ _) fun _ => .readThenWrite _ _)
  | bcReadBit =>
    exact execute_res0 h (.bind (.needPhase _ _) fun _ => .bind (.needMode _ _) fun _ =>
      .readThenWrite _ _)
  | grDecU =>
    exact execute_res0 h (.bind (.needCoder _ _) fun _ => .bind (.get _) fun _ => .readThenWrite _ _)
  | grDecS =>
    exact execute_res0 h (.bind (.needCoder _ _) fun _ => .bind (.get _) fun _ => .readThenWrite _ _)
  | lpPredict n => exact execute_res0 h (.bind (.raiseIf _ _ _) fun _ => .write _)
  | blkEstimate => exact execute_res0 h (.write _)
  | sdToMs => exact absurd rfl hms
  | sdToLr => exact absurd rfl hlr
  | _ => cases hres0

/-- The commands with no result in their row of 30_encoding.md R84 keep both, SOFT_RESET aside. -/
theorem exec_keeps_results {i : Instr} (hres0 : writesRes0 i = false) (hreset : i ≠ .softReset)
    {s t : State} (h : exec i s = .next t) : t.results = s.results := by
  cases i with
  | softReset => exact absurd rfl hreset
  | nop => exact execute_results h (.pure _ ())
  | bcOpenWrite => exact execute_results h (.guarded _ _ openWriteBody_keeps_results)
  | bcOpenRead => exact execute_results h (.guarded _ _ openReadBody_keeps_results)
  | bcWriteBits n =>
    exact execute_results h (.bind (.raiseIf _ _ _) fun _ =>
      .guarded _ _ (.writeChannel (fun _ _ => rfl) _))
  | bcWriteBit => exact execute_results h (.guarded _ _ (.writeChannel (fun _ _ => rfl) _))
  | bcClose => exact execute_results h closeBody_keeps_results
  | grConfig =>
    exact execute_results h (.bind (.get _) fun _ => .bind (.raiseIf _ _ _) fun _ =>
      .bind (.raiseIf _ _ _) fun _ => .change fun _ => rfl)
  | grEncU =>
    exact execute_results h (.bind (.needCoder _ _) fun _ => .writeChannel (fun _ _ => rfl) _)
  | grEncS =>
    exact execute_results h (.bind (.needCoder _ _) fun _ => .writeChannel (fun _ _ => rfl) _)
  | blkEncodeNext => exact execute_results h (.guarded _ _ encodeNextBody_keeps_results)
  | blkDecodeNext => exact execute_results h (.guarded _ _ decodeNextBody_keeps_results)
  | hdrWrite => exact execute_results h (.guarded _ _ headerWriteBody_keeps_results)
  | hdrRead => exact execute_results h (.guarded _ _ headerReadBody_keeps_results)
  | encodeFile =>
    exact execute_results h <| .guarded _ _ <| .bind (.validateCfg _) fun _ =>
      .bind openWriteBody_keeps_results fun _ => .bind headerWriteBody_keeps_results fun _ =>
      .bind (.allBlocks encodeNextBody_keeps_results _) fun _ => closeBody_keeps_results
  | decodeFile =>
    exact execute_results h <| .guarded _ _ <| .bind openReadBody_keeps_results fun _ =>
      .bind headerReadBody_keeps_results fun _ =>
      .bind (.allBlocks decodeNextBody_keeps_results _) fun _ => closeBody_keeps_results
  | _ => cases hres0

/-- What any command but SOFT_RESET can do to the results (10_state.md R30): keep both, or succeed as one
of those whose rules name RES0, RES1 changing by SD_TO_MS and SD_TO_LR only. -/
theorem exec_results_cases {i : Instr} (hreset : i ≠ .softReset) {s t : State}
    (h : exec i s = .next t) :
    t.results = s.results ∨
      writesRes0 i = true ∧ t.done = true ∧ (t.res1 = s.res1 ∨ i = .sdToMs ∨ i = .sdToLr) := by
  cases hres0 : writesRes0 i with
  | false => exact .inl (exec_keeps_results hres0 hreset h)
  | true =>
    by_cases hms : i = .sdToMs
    · subst hms
      exact .inr ⟨rfl, execute_change_done h, .inr (.inl rfl)⟩
    by_cases hlr : i = .sdToLr
    · subst hlr
      exact .inr ⟨rfl, execute_change_done h, .inr (.inr rfl)⟩
    exact (exec_res0 hres0 hms hlr h).imp_right fun ⟨hdone, hres1⟩ => ⟨rfl, hdone, .inl hres1⟩

/-- Settles O58: a command either keeps both results, or is one of the eight and has succeeded. -/
theorem resultsAreWrittenOnSuccessOnly : Obligations.ResultsAreWrittenOnSuccessOnly := by
  refine ⟨fun i s t hreset h => ?_, rfl, rfl⟩
  rcases exec_results_cases hreset h with hkept | ⟨hres0, hdone, hres1⟩
  · obtain ⟨h0, h1⟩ := State.results_eq_iff.mp hkept
    exact ⟨fun _ => ⟨h0, h1⟩, fun _ _ => h1⟩
  · refine ⟨fun hraisedOrOther => ?_, fun hms hlr => ?_⟩
    · simp [hdone, hres0] at hraisedOrOther
    · rcases hres1 with hres1 | hi | hi
      · exact hres1
      · exact absurd hi hms
      · exact absurd hi hlr

end Sys2Proof.Machine
end

section
/-!
The host's accesses to the register map (10_state.md R21, 20_memory.md R61 to R63): which offsets name a
register, and what a read and a write of a register do.
-/

namespace Sys2Proof.Machine

/-! ### Which accesses name a register -/

/-- The map's offsets are the twenty multiples of 4 from 0x00 (10_state.md R21). -/
theorem regMap_offsets : regMap.map Prod.fst = (List.range 20).map (4 * ·) := rfl

theorem mem_regMap_offsets_iff (off : Nat) :
    off ∈ regMap.map Prod.fst ↔ off % 4 = 0 ∧ off < 0x50 := by
  rw [regMap_offsets, List.mem_map]
  constructor
  · rintro ⟨k, hk, rfl⟩
    have := List.mem_range.mp hk
    omega
  · rintro ⟨haligned, hrange⟩
    exact ⟨off / 4, List.mem_range.mpr (by omega), by omega⟩

/-- An access names no register exactly when its size or its offset is wrong (20_memory.md R62). -/
theorem regAt_eq_none_iff (off size : Nat) :
    regAt off size = none ↔ size ≠ 4 ∨ off % 4 ≠ 0 ∨ 0x50 ≤ off := by
  have hmem := mem_regMap_offsets_iff off
  by_cases hsize : size = 4
  · have hlookup : regAt off size = none ↔ off ∉ regMap.map Prod.fst := by
      rw [regAt, if_pos hsize, List.lookup_eq_none_iff]
      simp only [List.mem_map, not_exists, not_and, bne_iff_ne, ne_comm (a := off), ne_eq]
    rw [hlookup, hmem]
    omega
  · simp [regAt, hsize]

/-- Every word of the map names a register (10_state.md R21). -/
theorem exists_regAt {off : Nat} (haligned : off % 4 = 0) (hrange : off < 0x50) :
    ∃ r, regAt off 4 = some r := by
  refine Option.ne_none_iff_exists'.mp fun hnone => ?_
  have := (regAt_eq_none_iff off 4).mp hnone
  omega

/-! ### What an access does -/

section Access
variable {s : State} {off size : Nat} {v : Word} {r : Reg}

theorem hostMove_read_outside (hreg : regAt off size = none) :
    hostMove (.read off size) s = .fault .noSuchRegister := by
  simp only [hostMove, hreg]

theorem hostMove_write_outside (hreg : regAt off size = none) :
    hostMove (.write off size v) s = .fault .noSuchRegister := by
  simp only [hostMove, hreg]

theorem hostMove_read_register (hreg : regAt off size = some r) :
    hostMove (.read off size) s = .next (s.hostRead r) := by
  simp only [hostMove, hreg]

/-- A write while BUSY = 1 is refused (20_memory.md R63). -/
theorem hostMove_write_busy (hbusy : s.cur.isSome = true) (hreg : regAt off size = some r) :
    hostMove (.write off size v) s = .refused .hostWriteWhileBusy := by
  simp only [hostMove, hreg, State.busy, hbusy, if_true]

/-- A write while BUSY = 0 is the register's own (20_memory.md R63). -/
theorem hostMove_write_ready (hready : s.cur = none) (hreg : regAt off size = some r) :
    hostMove (.write off size v) s = .next (s.writeReg v r) := by
  simp [hostMove, hreg, State.busy, hready]

/-- A read while BUSY = 0 shows the register's value (20_memory.md R61). -/
theorem hostRead_ready (hready : s.cur = none) :
    s.hostRead r = { s with seen := { s.seen with word := s.readReg r } } := by
  simp [State.hostRead, State.busy, hready]

theorem hostMove_read_ready (hready : s.cur = none) (hreg : regAt off size = some r) :
    hostMove (.read off size) s = .next { s with seen := { s.seen with word := s.readReg r } } := by
  rw [hostMove_read_register hreg, hostRead_ready hready]

end Access

/-- Settles O11: such an access names no register, and every other read names one. -/
theorem accessOutsideTheMapHasNoStep : Obligations.AccessOutsideTheMapHasNoStep := by
  refine ⟨fun s t off size v hbad => ?_, fun s off haligned hrange => ?_⟩
  · have hreg : regAt off size = none := (regAt_eq_none_iff off size).mpr hbad
    rw [hostMove_read_outside hreg, hostMove_write_outside hreg]
    exact ⟨nofun, nofun⟩
  · obtain ⟨r, hreg⟩ := exists_regAt haligned hrange
    exact ⟨s.hostRead r, hostMove_read_register hreg⟩

/-! ### The registers one by one -/

theorem regAt_of_mem : ∀ p ∈ regMap, regAt p.1 4 = some p.2 := by decide

/-- Every register of the map reads as its value while BUSY = 0 (20_memory.md R61). -/
theorem hostMove_read_value {s : State} (hready : s.cur = none) :
    ∀ p ∈ regMap.map fun e => (e.1, s.readReg e.2),
      hostMove (.read p.1 4) s = .next { s with seen := { s.seen with word := p.2 } } := by
  intro p hp
  obtain ⟨e, he, rfl⟩ := List.mem_map.mp hp
  exact hostMove_read_ready hready (regAt_of_mem e he)

/-- Settles O10: the listed values are those of `State.readReg`. -/
theorem registerReadsReturnTheValue : Obligations.RegisterReadsReturnTheValue := by
  intro s hready
  have hneg : (if s.grNeg = .zigZag then 0#32 else 1#32) = BitVec.ofNat 32 s.grNeg.code := by
    cases s.grNeg <;> rfl
  rw [hneg]
  exact hostMove_read_value hready

/-- Settles O9: with BUSY = 0 a write is `State.writeReg` of the register named, and with BUSY = 1 every
register of the map refuses it. -/
theorem registerWritesByKind : Obligations.RegisterWritesByKind := by
  refine ⟨fun s v hready => ?_, fun s k v hbusy hk => ?_⟩
  · have hwrite : ∀ {off} (r : Reg), regAt off 4 = some r →
        hostMove (.write off 4 v) s = .next (s.writeReg v r) := fun _ => hostMove_write_ready hready
    have hlow : ∀ n ≤ 32, v.extractLsb' 0 n = v.setWidth n := fun n hn =>
      (BitVec.setWidth_eq_extractLsb' hn).symm
    have hreadOnly : ∀ off ∈ [0x04, 0x14, 0x18, 0x1C, 0x20, 0x24, 0x28, 0x2C],
        ∃ r, regAt off 4 = some r ∧ s.writeReg v r = s := by
      simp only [List.forall_mem_cons]
      exact ⟨⟨.status, rfl, rfl⟩, ⟨.res0, rfl, rfl⟩, ⟨.res1, rfl, rfl⟩, ⟨.bcState, rfl, rfl⟩,
        ⟨.bcByteCount, rfl, rfl⟩, ⟨.framesDone, rfl, rfl⟩, ⟨.grM, rfl, rfl⟩, ⟨.grNeg, rfl, rfl⟩, nofun⟩
    rw [hlow 16 (by decide), hlow 8 (by decide), hlow 1 (by decide)]
    refine ⟨hwrite .arg0 rfl, hwrite .arg1 rfl, hwrite .arg2 rfl, hwrite .cfgSampleRate rfl,
      hwrite .cfgTotalFrames rfl, hwrite .cfgBlockSize rfl, hwrite .cfgChannels rfl,
      hwrite .cfgOrder rfl, hwrite .cfgNeg rfl, hwrite .cfgDynamic rfl, hwrite .cfgStaticM rfl,
      fun off hoff => ?_, hwrite .cmd rfl⟩
    obtain ⟨r, hreg, hkept⟩ := hreadOnly off hoff
    rw [hwrite r hreg, hkept]
  · obtain ⟨r, hreg⟩ := exists_regAt (off := 4 * k) (by omega) (by omega)
    exact hostMove_write_busy hbusy hreg

end Sys2Proof.Machine
end

section
/-!
The decoder of 30_encoding.md R82 and R83: which opcodes are in the map, what `decode` answers for each
word, and what a rejected word does on the core's turn.
-/

namespace Sys2Proof.Machine

open Sys2Proof.Claims

/-! ### The opcode map -/

/-- The opcode map's column OP does not depend on `N` (30_encoding.md R84). -/
theorem commandsWith_opcodes (n : Nat) :
    (commandsWith n).map opcodeOf =
      [0x00, 0x01, 0x10, 0x11, 0x12, 0x13, 0x14, 0x15, 0x16, 0x20, 0x21, 0x22, 0x23, 0x24, 0x30, 0x31,
       0x32, 0x40, 0x41, 0x42, 0x50, 0x51, 0x52, 0x53] := rfl

/-- The reserved ranges of 30_encoding.md R85 are what the opcode map of R84 leaves out. -/
theorem reservedOp_iff_not_mem (op n : Nat) :
    ReservedOp op ↔ op ∉ (commandsWith n).map opcodeOf := by
  rw [commandsWith_opcodes]
  simp only [ReservedOp, List.mem_cons, List.not_mem_nil, or_false]
  omega

theorem commandOf_eq_none_iff (op n : Nat) : commandOf op n = none ↔ ReservedOp op := by
  rw [reservedOp_iff_not_mem op n, commandOf, List.find?_eq_none]
  simp only [beq_iff_eq, List.mem_map, not_exists, not_and]

theorem exists_commandOf {op : Nat} (hop : ¬ ReservedOp op) (n : Nat) :
    ∃ i, commandOf op n = some i :=
  Option.ne_none_iff_exists'.mp (mt (commandOf_eq_none_iff op n).mp hop)

/-- The rows that say "N used" are told by their opcodes (30_encoding.md R84). -/
theorem usesN_iff_mem_countedOps (i : Instr) : usesN i = true ↔ opcodeOf i ∈ countedOps := by
  cases i <;> simp [usesN, opcodeOf, countedOps]

theorem fieldN_of_mem_commandsWith (n : Nat) :
    ∀ i ∈ commandsWith n, usesN i = true → i.fieldN = n := by
  simp [commandsWith, usesN, Instr.fieldN]

section Selected
variable {op n : Nat} {i : Instr}

theorem opcodeOf_commandOf (hi : commandOf op n = some i) : opcodeOf i = op := by
  simpa using List.find?_some hi

/-- On a row that says "N used" the command takes `N` as its operand (30_encoding.md R83). -/
theorem fieldN_commandOf (hi : commandOf op n = some i) (hused : usesN i = true) : i.fieldN = n :=
  fieldN_of_mem_commandsWith n i (List.mem_of_find?_eq_some hi) hused

end Selected

/-! ### What a word decodes to -/

/-- Bits that must be zero in a word of `i`'s row and are not (30_encoding.md R83). -/
def BadBits (v : Word) (i : Instr) : Prop := rsvdField v ≠ 0 ∨ (usesN i = false ∧ nField v ≠ 0)

section Words
variable {v : Word} {i : Instr}

theorem decode_of_reserved (hop : ReservedOp (opField v)) : decode v = .error .undefinedOpcode := by
  simp only [decode, (commandOf_eq_none_iff _ _).mpr hop]

theorem decode_of_badBits (hi : commandOf (opField v) (nField v) = some i) (hbad : BadBits v i) :
    decode v = .error .reservedBits := by
  simp only [decode, hi]
  by_cases hrsvd : rsvdField v ≠ 0
  · rw [if_pos hrsvd]
  · rw [if_neg hrsvd, if_pos (hbad.resolve_left hrsvd)]

theorem decode_of_goodBits (hi : commandOf (opField v) (nField v) = some i) (hgood : ¬ BadBits v i) :
    decode v = .ok i := by
  obtain ⟨hrsvd, hunused⟩ := not_or.mp hgood
  simp only [decode, hi]
  rw [if_neg hrsvd, if_neg hunused]

/-- A word is rejected for its opcode, rejected for its bits, or decoded (30_encoding.md R82, R83). -/
theorem decode_cases (v : Word) :
    (ReservedOp (opField v) ∧ decode v = .error .undefinedOpcode) ∨
      ∃ i, commandOf (opField v) (nField v) = some i ∧
        ((BadBits v i ∧ decode v = .error .reservedBits) ∨ (¬ BadBits v i ∧ decode v = .ok i)) := by
  by_cases hop : ReservedOp (opField v)
  · exact .inl ⟨hop, decode_of_reserved hop⟩
  · obtain ⟨i, hi⟩ := exists_commandOf hop (nField v)
    by_cases hbits : BadBits v i
    · exact .inr ⟨i, hi, .inl ⟨hbits, decode_of_badBits hi hbits⟩⟩
    · exact .inr ⟨i, hi, .inr ⟨hbits, decode_of_goodBits hi hbits⟩⟩

/-- The opcode selects the command (30_encoding.md R82). -/
theorem commandOf_of_decode (hd : decode v = .ok i) : commandOf (opField v) (nField v) = some i := by
  rcases decode_cases v with ⟨_, herror⟩ | ⟨j, hj, ⟨_, herror⟩ | ⟨_, hok⟩⟩
  · cases herror.symm.trans hd
  · cases herror.symm.trans hd
  · cases hok.symm.trans hd
    exact hj

theorem reservedOp_of_decode (hd : decode v = .error .undefinedOpcode) : ReservedOp (opField v) := by
  rcases decode_cases v with ⟨hop, _⟩ | ⟨i, _, ⟨_, herror⟩ | ⟨_, hok⟩⟩
  · exact hop
  · cases herror.symm.trans hd
  · cases hok.symm.trans hd

end Words

/-! ### The core's turn -/

section CoreTurn
variable {s t : State} {v : Word}

/-- When the core moves next, the step is its turn (log 1). -/
theorem step_eq_coreTurn (hturn : s.nextTurn = (.core, t)) : step s = coreTurn t := by
  simp only [step, hturn]

/-- A word in flight that decodes to `i` steps as `i` (30_encoding.md R81). -/
theorem step_of_decode_ok {i : Instr} (hturn : s.nextTurn = (.core, t)) (hcur : t.cur = some v)
    (hd : decode v = .ok i) : step s = exec i t := by
  simp only [step_eq_coreTurn hturn, coreTurn, hcur, hd]

/-- A word in flight that is no command steps to error entry (30_encoding.md R82, R83). -/
theorem step_of_decode_error {d : DecodeError} (hturn : s.nextTurn = (.core, t)) (hcur : t.cur = some v)
    (hd : decode v = .error d) : step s = .next (t.raiseError (rejection d)) := by
  simp only [step_eq_coreTurn hturn, coreTurn, hcur, hd, rejectWord]

end CoreTurn

/-- Settles O4: a word's opcode is in the map, and selects the command, or it is the reason of the
rejection. -/
theorem opcodeSelectsTheCommandOrRaises : Obligations.OpcodeSelectsTheCommandOrRaises :=
  ⟨fun _ _ hd => opcodeOf_commandOf (commandOf_of_decode hd),
    fun _ _ _ hturn hcur hop => step_of_decode_error hturn hcur (decode_of_reserved hop),
    fun _ hop hd => hop (reservedOp_of_decode hd)⟩

/-- Settles O5: the row that the opcode selects says whether `N` must be zero. -/
theorem reservedBitsRaise : Obligations.ReservedBitsRaise := by
  refine ⟨fun s t v hturn hcur hop hbits => ?_, fun v hcounted hrsvd => ?_⟩
  · obtain ⟨i, hi⟩ := exists_commandOf hop (nField v)
    have hused := usesN_iff_mem_countedOps i
    rw [opcodeOf_commandOf hi] at hused
    have hbad : BadBits v i := hbits.imp_right fun ⟨huncounted, hn⟩ =>
      ⟨Bool.eq_false_iff.mpr (mt hused.mp huncounted), hn⟩
    exact step_of_decode_error hturn hcur (decode_of_badBits hi hbad)
  · have hop : ¬ ReservedOp (opField v) := by
      simp only [countedOps, List.mem_cons, List.not_mem_nil, or_false] at hcounted
      simp only [ReservedOp]
      omega
    obtain ⟨i, hi⟩ := exists_commandOf hop (nField v)
    have hused : usesN i = true := by
      rwa [usesN_iff_mem_countedOps, opcodeOf_commandOf hi]
    have hgood : ¬ BadBits v i := by simp [BadBits, hrsvd, hused]
    have hn : nField v < 64 := Nat.mod_lt _ (by decide)
    exact ⟨i, decode_of_goodBits hi hgood, fieldN_commandOf hi hused, Nat.le_of_lt_succ hn⟩

end Sys2Proof.Machine
end

section
/-!
How a command ends (30_encoding.md R81): no body but SOFT_RESET's writes the handshake, the recorded
error or anything of the host's side, so the end of the command alone decides them.
-/

namespace Sys2Proof.Machine

/-- What the body of no command but SOFT_RESET writes: the handshake, the recorded error, the operands,
PCM_IN, the turns and the host's record. -/
def State.bodyFrame (s : State) :
    (Option Word × Bool × Option Raise) × (Word × Word × Word) × List Sample × List Turn × HostSeen :=
  ((s.cur, s.done, s.error), (s.arg0, s.arg1, s.arg2), s.pcmIn, s.sched, s.seen)

theorem State.error_eq_of_bodyFrame {s t : State} (h : t.bodyFrame = s.bodyFrame) :
    t.error = s.error := congrArg (·.1.2.2) h

theorem State.bodyFrame_endRun (p : Phase) (s : State) : (s.endRun p).bodyFrame = s.bodyFrame := by
  rcases endRun_cases p s with ⟨_, h⟩ | ⟨_, h⟩ <;> rw [h]
  rfl

theorem encodeNextBody_keeps_bodyFrame : Keeps State.bodyFrame encodeNextBody :=
  .change fun _ => State.bodyFrame_endRun _ _

theorem decodeNextBody_keeps_bodyFrame : Keeps State.bodyFrame decodeNextBody :=
  .bind (.get _) fun _ => .bind (.onChannel (fun _ _ => rfl) _) fun _ =>
    .change fun _ => State.bodyFrame_endRun _ _

theorem headerWriteBody_keeps_bodyFrame : Keeps State.bodyFrame headerWriteBody :=
  .bind (.validateCfg _) fun _ => .change fun _ => rfl

theorem headerReadBody_keeps_bodyFrame : Keeps State.bodyFrame headerReadBody :=
  .bind (.onChannel (fun _ _ => rfl) _) fun _ => .bind (.onChannel (fun _ _ => rfl) _) fun _ =>
    .change fun _ => rfl

theorem openWriteBody_keeps_bodyFrame : Keeps State.bodyFrame openWriteBody :=
  .openWriteBody (fun _ _ => rfl) fun _ => rfl

theorem openReadBody_keeps_bodyFrame : Keeps State.bodyFrame openReadBody :=
  .openReadBody (fun _ _ => rfl) fun _ => rfl

theorem closeBody_keeps_bodyFrame : Keeps State.bodyFrame closeBody :=
  .closeBody (fun _ _ => rfl) (fun _ => rfl) fun _ _ => rfl

/-- A value read from the stream and written to RES0 (10_state.md R30). -/
theorem readThenWrite_keeps_bodyFrame {α : Type} (r : Reader α) (v : α → Word) :
    Keeps State.bodyFrame (onChannel r >>= fun a => change fun s => { s with res0 := v a }) :=
  .bind (.onChannel (fun _ _ => rfl) r) fun _ => .change fun _ => rfl

/-- Every command but SOFT_RESET executes a body that keeps the frame. -/
theorem exec_body_keeps_bodyFrame {i : Instr} (hreset : i ≠ .softReset) :
    ∃ body : Cmd Unit, (∀ s, exec i s = execute body s) ∧ Keeps State.bodyFrame body := by
  cases i <;> refine ⟨_, fun _ => rfl, ?_⟩
  case softReset => exact absurd rfl hreset
  case nop => exact .pure _ ()
  case bcOpenWrite => exact .guarded _ _ openWriteBody_keeps_bodyFrame
  case bcOpenRead => exact .guarded _ _ openReadBody_keeps_bodyFrame
  case bcWriteBits n =>
    exact .bind (.raiseIf _ _ _) fun _ => .guarded _ _ (.writeChannel (fun _ _ => rfl) _)
  case bcWriteBit => exact .guarded _ _ (.writeChannel (fun _ _ => rfl) _)
  case bcReadBits n =>
    exact .bind (.raiseIf _ _ _) fun _ => .guarded _ _ (readThenWrite_keeps_bodyFrame _ _)
  case bcReadBit => exact .guarded _ _ (readThenWrite_keeps_bodyFrame _ _)
  case bcClose => exact closeBody_keeps_bodyFrame
  case grConfig =>
    exact .bind (.get _) fun _ => .bind (.raiseIf _ _ _) fun _ => .bind (.raiseIf _ _ _) fun _ =>
      .change fun _ => rfl
  case grEncU => exact .bind (.needCoder _ _) fun _ => .writeChannel (fun _ _ => rfl) _
  case grEncS => exact .bind (.needCoder _ _) fun _ => .writeChannel (fun _ _ => rfl) _
  case grDecU =>
    exact .bind (.needCoder _ _) fun _ => .bind (.get _) fun _ => readThenWrite_keeps_bodyFrame _ _
  case grDecS =>
    exact .bind (.needCoder _ _) fun _ => .bind (.get _) fun _ => readThenWrite_keeps_bodyFrame _ _
  case lpPredict n => exact .bind (.raiseIf _ _ _) fun _ => .change fun _ => rfl
  case sdToMs => exact .change fun _ => rfl
  case sdToLr => exact .change fun _ => rfl
  case blkEstimate => exact .change fun _ => rfl
  case blkEncodeNext => exact .guarded _ _ encodeNextBody_keeps_bodyFrame
  case blkDecodeNext => exact .guarded _ _ decodeNextBody_keeps_bodyFrame
  case hdrWrite => exact .guarded _ _ headerWriteBody_keeps_bodyFrame
  case hdrRead => exact .guarded _ _ headerReadBody_keeps_bodyFrame
  case encodeFile =>
    exact .guarded _ _ <| .bind (.validateCfg _) fun _ => .bind openWriteBody_keeps_bodyFrame fun _ =>
      .bind headerWriteBody_keeps_bodyFrame fun _ =>
      .bind (.allBlocks encodeNextBody_keeps_bodyFrame _) fun _ => closeBody_keeps_bodyFrame
  case decodeFile =>
    exact .guarded _ _ <| .bind openReadBody_keeps_bodyFrame fun _ =>
      .bind headerReadBody_keeps_bodyFrame fun _ =>
      .bind (.allBlocks decodeNextBody_keeps_bodyFrame _) fun _ => closeBody_keeps_bodyFrame

theorem exec_softReset (s : State) : exec .softReset s = .next s.coreReset.succeed := rfl

/-- A command other than SOFT_RESET succeeds or raises from a state that its body has left in the frame
of the first (30_encoding.md R81). -/
theorem exec_ends {i : Instr} (hreset : i ≠ .softReset) (s : State) :
    ∃ u : State, u.bodyFrame = s.bodyFrame ∧
      (exec i s = .next u.succeed ∨ ∃ e, exec i s = .next (u.raiseError e)) := by
  obtain ⟨body, hexec, hkeeps⟩ := exec_body_keeps_bodyFrame hreset
  rw [hexec]
  cases hrun : body s with
  | ok a u => exact ⟨u, hkeeps.of_ok hrun, .inl (execute_ok hrun)⟩
  | error e u => exact ⟨u, hkeeps.of_error hrun, .inr ⟨e, execute_error hrun⟩⟩

/-- Settles O15: a command's end empties `cur` and writes DONE or the error, and its body has not touched
the error recorded before; a word that is no command raises. -/
theorem commandsEndInSuccessOrError : Obligations.CommandsEndInSuccessOrError := by
  have hcommand : ∀ (i : Instr) (s : State), ∃ t, exec i s = .next t ∧ t.cur = none ∧ t.busy = false ∧
      ((t.done = true ∧ t.error = if i = .softReset then none else s.error) ∨
        (t.done = false ∧ t.err = true ∧ i ≠ .softReset)) := by
    intro i s
    by_cases hreset : i = .softReset
    · subst hreset
      exact ⟨_, exec_softReset s, rfl, rfl, .inl ⟨rfl, rfl⟩⟩
    · obtain ⟨u, hframe, hok | ⟨e, herror⟩⟩ := exec_ends hreset s
      · rw [if_neg hreset]
        have herror : u.error = s.error := State.error_eq_of_bodyFrame hframe
        exact ⟨_, hok, rfl, rfl, .inl ⟨rfl, herror⟩⟩
      · exact ⟨_, herror, rfl, rfl, .inr ⟨rfl, rfl, hreset⟩⟩
  refine ⟨hcommand, fun s t v hturn hcur => ?_⟩
  cases hd : decode v with
  | ok i =>
    obtain ⟨u, hexec, hempty, hbusy, hend⟩ := hcommand i t
    refine ⟨u, (step_of_decode_ok hturn hcur hd).trans hexec, hempty, hbusy, hend.imp And.left fun ⟨hdone, herr, _⟩ => ⟨hdone, ?_⟩⟩
    exact Option.isSome_iff_exists.mp herr
  | error d =>
    exact ⟨_, step_of_decode_error hturn hcur hd, rfl, rfl, .inr ⟨rfl, _, rfl⟩⟩

end Sys2Proof.Machine
end

section
/-!
The code parameters of 30_encoding.md R95: the model's upward search finds Mathlib's `Nat.clog 2`.
-/

namespace Sys2Proof.Machine

/-- The search finds the least exponent when it starts at or below it and has fuel to reach it. -/
theorem codeBitsFrom_eq_clog (m fuel b : Nat) (hstart : b ≤ Nat.clog 2 m)
    (hfuel : Nat.clog 2 m ≤ b + fuel) : codeBitsFrom m fuel b = Nat.clog 2 m := by
  induction fuel generalizing b with
  | zero => exact Nat.le_antisymm hstart hfuel
  | succ fuel ih =>
    rw [codeBitsFrom]
    split
    next hle => exact Nat.le_antisymm hstart (Nat.clog_le_of_le_pow hle)
    next hgt =>
      have hlt : b < Nat.clog 2 m := (Nat.lt_clog_iff_pow_lt Nat.one_lt_two).mpr (Nat.lt_of_not_le hgt)
      exact ih (b + 1) hlt (by omega)

/-- `b(m) = ⌈log2 m⌉` (30_encoding.md R95). -/
theorem codeBits_eq_clog (m : Nat) : codeBits m = Nat.clog 2 m :=
  codeBitsFrom_eq_clog m m 0 (Nat.zero_le _)
    (by simpa using Nat.clog_le_of_le_pow Nat.lt_two_pow_self.le)

theorem codeBits_le_iff (m b : Nat) : codeBits m ≤ b ↔ m ≤ 2 ^ b := by
  rw [codeBits_eq_clog, Nat.clog_le_iff_le_pow Nat.one_lt_two]

theorem le_two_pow_codeBits (m : Nat) : m ≤ 2 ^ codeBits m := (codeBits_le_iff m _).mp le_rfl

theorem codeBits_two_pow (k : Nat) : codeBits (2 ^ k) = k := by
  rw [codeBits_eq_clog, Nat.clog_pow 2 k Nat.one_lt_two]

theorem cutoff_add (m : Nat) : cutoff m + m = 2 ^ codeBits m :=
  Nat.sub_add_cancel (le_two_pow_codeBits m)

/-- The short remainders fit in one bit less (30_encoding.md R95, R96). -/
theorem cutoff_lt {m : Nat} (hb : 1 ≤ codeBits m) : cutoff m < 2 ^ (codeBits m - 1) := by
  have hhalf : 2 ^ (codeBits m - 1) < m := Nat.lt_of_not_le fun hle => by
    have := (codeBits_le_iff m _).mpr hle
    omega
  have hdouble : 2 ^ codeBits m = 2 * 2 ^ (codeBits m - 1) := by
    rw [← pow_succ', Nat.sub_add_cancel hb]
  have := cutoff_add m
  omega

theorem cutoff_eq_zero_iff (m : Nat) : cutoff m = 0 ↔ ∃ k, m = 2 ^ k := by
  constructor
  · intro hzero
    exact ⟨codeBits m, by simpa [hzero] using cutoff_add m⟩
  · rintro ⟨k, rfl⟩
    rw [cutoff, codeBits_two_pow, Nat.sub_self]

/-- Settles O30: `codeBits` is the ceiling of the binary logarithm. -/
theorem codeParametersAreLeast : Obligations.CodeParametersAreLeast := fun m _ =>
  ⟨le_two_pow_codeBits m, fun b => (codeBits_le_iff m b).mpr, cutoff_add m, cutoff_lt,
    cutoff_eq_zero_iff m, by decide⟩

end Sys2Proof.Machine
end

section
/-!
A host write of CMD (30_encoding.md R80).
-/

namespace Sys2Proof.Machine

section Cmd
variable {s : State} {v : Word}

theorem writeCmd_taken (htake : s.error = none ∨ v = 1#32) : s.writeCmd v = s.issue v := by
  rcases writeCmd_cases v s with ⟨herr, hv, _⟩ | ⟨_, hissue⟩
  · rcases htake with hnone | hone
    · simp [State.err, hnone] at herr
    · exact absurd hone hv
  · exact hissue

theorem writeCmd_dropped {e : Raise} (herror : s.error = some e) (hv : v ≠ 1#32) :
    s.writeCmd v = s := by
  rcases writeCmd_cases v s with ⟨_, _, hdrop⟩ | ⟨hnone | hone, _⟩
  · exact hdrop
  · simp [State.err, herror] at hnone
  · exact absurd hone hv

/-- A write at the offset of CMD while BUSY = 0 (10_state.md R22, 20_memory.md R63). -/
theorem hostMove_write_cmd (hready : s.cur = none) :
    hostMove (.write 0x00 4 v) s = .next (s.writeCmd v) :=
  hostMove_write_ready (r := .cmd) hready rfl

end Cmd

/-- Settles O8: the word is issued unless an error is recorded and it is not SOFT_RESET's. -/
theorem commandWriteIssuesOrIsDropped : Obligations.CommandWriteIssuesOrIsDropped := by
  refine ⟨fun s v hready hnone => ?_, fun s e hready _ => ?_, fun s e v hready herror hv => ?_⟩
  · rw [hostMove_write_cmd hready, writeCmd_taken (.inl hnone), State.issue]
  · rw [hostMove_write_cmd hready, writeCmd_taken (.inr rfl), State.issue]
  · rw [hostMove_write_cmd hready, writeCmd_dropped herror hv]

end Sys2Proof.Machine
end

section
/-!
The bit order of the streams (20_memory.md R69) against the writer of 40_bitchannel.md R124 and R125: bit
`i` of a bit string, of a byte and of a byte sequence, and what one written bit adds to the bits written.
-/

namespace Sys2Proof.Machine

open Sys2Proof.Claims

/-! ### Bit strings -/

@[simp] theorem binBits_getElem {v n i : Nat} (hi : i < (binBits v n).length) :
    (binBits v n)[i] = v.testBit (n - 1 - i) := by
  induction n generalizing i with
  | zero => cases hi
  | succ n ih =>
    cases i with
    | zero => rfl
    | succ i =>
      have hindex : n - 1 - i = n + 1 - 1 - (i + 1) := by omega
      exact (ih (Nat.lt_of_succ_lt_succ hi)).trans (congrArg v.testBit hindex)

/-- The last bit of a string is the least significant one (00_scope.md R11). -/
theorem binBits_double_add (v n : Nat) (x : Bool) :
    binBits (2 * v + x.toNat) (n + 1) = binBits v n ++ [x] := by
  induction n with
  | zero => cases x <;> simp [binBits, Nat.testBit_zero]
  | succ n ih =>
    have hhalf : (2 * v + x.toNat) / 2 = v := by
      have := Bool.toNat_lt x
      omega
    rw [binBits, ih, binBits, List.cons_append, Nat.testBit_add_one, hhalf]

theorem binBits_injective {u v n : Nat} (hu : u < 2 ^ n) (hv : v < 2 ^ n)
    (h : binBits u n = binBits v n) : u = v := by
  refine Nat.eq_of_testBit_eq fun i => ?_
  by_cases hi : i < n
  · have hbit := congrArg (·[n - 1 - i]?) h
    have hback : n - 1 - (n - 1 - i) = i := by omega
    simpa [show n - 1 - i < n by omega, hback] using hbit
  · have hle : 2 ^ n ≤ 2 ^ i := Nat.pow_le_pow_right (by decide) (Nat.le_of_not_lt hi)
    rw [Nat.testBit_lt_two_pow (hu.trans_le hle), Nat.testBit_lt_two_pow (hv.trans_le hle)]

/-! ### The pending byte -/

theorem pendingClean_iff (b : BitChannel) :
    PendingClean b ↔ ∀ i < 8 - b.wpos.val, b.wpend.toNat.testBit i = false := by
  constructor
  · intro hclean i hi
    have hbit := congrArg (Nat.testBit · i) hclean
    simpa [Nat.testBit_mod_two_pow, hi] using hbit
  · intro hzero
    refine Nat.eq_of_testBit_eq fun i => ?_
    by_cases hi : i < 8 - b.wpos.val
    · simp [Nat.testBit_mod_two_pow, hzero i hi]
    · simp [Nat.testBit_mod_two_pow, hi]

/-- `wpend OR (bit << (7 - wpos))` sets at most the bit at `7 - wpos` (40_bitchannel.md R124). -/
theorem pendWith_testBit (bit : Bool) (b : BitChannel) (i : Nat) :
    (b.pendWith bit).toNat.testBit i =
      (b.wpend.toNat.testBit i || (bit && decide (i = 7 - b.wpos.val))) := by
  have hfits : bit.toNat * 2 ^ (7 - b.wpos.val) < 2 ^ 8 := by
    have hpow : 2 ^ (7 - b.wpos.val) ≤ 2 ^ 7 := Nat.pow_le_pow_right (by decide) (Nat.sub_le _ _)
    have := Nat.mul_le_mul (Bool.toNat_le bit) hpow
    omega
  rw [BitChannel.pendWith, BitVec.toNat_or, BitVec.toNat_ofNat, Nat.mod_eq_of_lt hfits, Nat.testBit_or]
  cases bit <;> simp [Nat.testBit_two_pow, eq_comm]

/-- In stream order the bit lands right after the pending ones (40_bitchannel.md R124). -/
theorem take_byteBits_pendWith (bit : Bool) {b : BitChannel} (hclean : PendingClean b) :
    (byteBits (b.pendWith bit)).take (b.wpos.val + 1) =
      (byteBits b.wpend).take b.wpos.val ++ [bit] := by
  have hpos : b.wpos.val < 8 := b.wpos.isLt
  have hold : (byteBits (b.pendWith bit)).take b.wpos.val = (byteBits b.wpend).take b.wpos.val := by
    refine List.ext_getElem? fun i => ?_
    by_cases hi : i < b.wpos.val
    · have hne : 7 - i ≠ 7 - b.wpos.val := by omega
      simp [hi, byteBits, pendWith_testBit, hne]
    · simp [hi]
  have hnew : (byteBits (b.pendWith bit))[b.wpos.val]? = some bit := by
    have hunset := (pendingClean_iff b).mp hclean (7 - b.wpos.val) (by omega)
    simp [byteBits, pendWith_testBit, hunset]
  rw [List.take_add_one, hold, hnew, Option.toList_some]

theorem streamOf_append_byte (bs : List Byte) (x : Byte) :
    streamOf (bs ++ [x]) = streamOf bs ++ byteBits x := by
  simp [streamOf]

/-! ### Writing -/

theorem writeBit_pendingClean (bit : Bool) {b : BitChannel} (hclean : PendingClean b) :
    PendingClean (b.writeBit bit) := by
  rcases writeBit_cases bit b with ⟨_, hwrite⟩ | ⟨hfree, hwrite⟩ <;> rw [hwrite]
  · exact Nat.zero_mod _
  · rw [pendingClean_iff] at hclean ⊢
    have hpos : (b.wpos + 1).val = b.wpos.val + 1 := Fin.val_add_one_of_lt' (by omega)
    intro i hi
    replace hi : i < 8 - (b.wpos + 1).val := hi
    have hne : i ≠ 7 - b.wpos.val := by omega
    have hunset := hclean i (by omega)
    simp [pendWith_testBit, hne, hunset]

/-- `WriteBit` appends its bit to the bits written (40_bitchannel.md R124). -/
theorem writeBit_written (bit : Bool) {b : BitChannel} (hclean : PendingClean b) :
    (b.writeBit bit).written = b.written ++ [bit] := by
  have hbits := take_byteBits_pendWith bit hclean
  rcases writeBit_cases bit b with ⟨hfull, hwrite⟩ | ⟨hfree, hwrite⟩ <;> rw [hwrite]
  · have hpos : b.wpos.val = 7 := congrArg Fin.val hfull
    have hwhole : (byteBits (b.pendWith bit)).take 8 = byteBits (b.pendWith bit) :=
      List.take_of_length_le (byteBits_length _).le
    rw [hpos, hwhole] at hbits
    simp [BitChannel.written, streamOf_append_byte, hbits, hpos]
  · have hpos : (b.wpos + 1).val = b.wpos.val + 1 := Fin.val_add_one_of_lt' (by omega)
    simp only [BitChannel.written, hpos, hbits, List.append_assoc]

theorem putBits_pendingClean (bits : List Bool) {b : BitChannel} (hclean : PendingClean b) :
    PendingClean (b.putBits bits) := by
  induction bits generalizing b with
  | nil => exact hclean
  | cons x xs ih => exact ih (writeBit_pendingClean x hclean)

/-- A bit string is appended to the bits written, first bit first. -/
theorem putBits_written (bits : List Bool) {b : BitChannel} (hclean : PendingClean b) :
    (b.putBits bits).written = b.written ++ bits := by
  induction bits generalizing b with
  | nil => simp
  | cons x xs ih =>
    rw [putBits_cons, ih (writeBit_pendingClean x hclean), writeBit_written x hclean,
      List.append_assoc, List.singleton_append]

/-- `WriteBits(v, n)` writes the string `bin_n(v)` (40_bitchannel.md R125, 00_scope.md R11). -/
theorem writeBits_eq_putBits (v n : Nat) (b : BitChannel) :
    b.writeBits v n = b.putBits (binBits v n) := by
  induction n generalizing b with
  | zero => rfl
  | succ n ih => exact ih (b.writeBit (v.testBit n))

/-- Settles O28: `WriteBits` puts `bin_n(v)`, each bit of which is appended to a clean writer. -/
theorem writeBitsAppendsToTheStream : Obligations.WriteBitsAppendsToTheStream := by
  intro v n b hclean
  have hframe := writeBits_frame v n b
  rw [writeBits_eq_putBits] at hframe ⊢
  exact ⟨putBits_written _ hclean, putBits_pendingClean _ hclean, hframe.mode, hframe.rdpos,
    hframe.byteIn, hframe.durable⟩

end Sys2Proof.Machine
end

section
/-!
The reader of 40_bitchannel.md R126 and R127 against the bits still unread, in the bit order of
20_memory.md R69.
-/

namespace Sys2Proof.Machine

/-! ### A body's next step -/

section Bind
variable {σ α β : Type} {x : EStateM Raise σ α} {k : α → EStateM Raise σ β} {a : α} {e : Raise}
  {s t : σ}

theorem bind_of_ok (hx : x s = .ok a t) : (x >>= k) s = k a t := by rw [bind_apply, hx]

theorem bind_of_error (hx : x s = .error e t) : (x >>= k) s = .error e t := by rw [bind_apply, hx]

end Bind

/-! ### Reading -/

/-- Bit `i` of a byte sequence (20_memory.md R69). -/
theorem streamOf_getElem? (bs : List Byte) {i : Nat} (hi : i < 8 * bs.length) :
    (streamOf bs)[i]? = some ((bs.getD (i / 8) 0).getLsbD (7 - i % 8)) := by
  induction bs generalizing i with
  | nil => cases hi
  | cons x xs ih =>
    have hcons : streamOf (x :: xs) = byteBits x ++ streamOf xs := rfl
    rw [List.length_cons] at hi
    by_cases hfirst : i < 8
    · rw [hcons, List.getElem?_append_left (by simpa using hfirst)]
      simp [byteBits, hfirst, Nat.div_eq_of_lt hfirst, Nat.mod_eq_of_lt hfirst,
        BitVec.testBit_toNat]
    · obtain ⟨j, rfl⟩ := Nat.exists_eq_add_of_le' (Nat.le_of_not_lt hfirst)
      rw [hcons, List.getElem?_append_right (by simp), byteBits_length, Nat.add_sub_cancel,
        ih (by omega), Nat.add_mod_right, Nat.add_div_right j (by decide), List.getD_cons_succ]

/-- Bit `i` of BYTE_IN is where the reader takes it (40_bitchannel.md R127). -/
theorem streamOf_byteIn_getElem? (b : BitChannel) {i : Nat} (hi : i < 8 * b.byteIn.length) :
    (streamOf b.byteIn)[i]? = some (b.sourceBit i) := streamOf_getElem? b.byteIn hi

/-- The value of `n` bits from bit `i` on is written by those bits (40_bitchannel.md R127). -/
theorem binBits_sourceBits (b : BitChannel) {i n : Nat} (hin : i + n ≤ 8 * b.byteIn.length) :
    binBits (b.sourceBits i n) n = ((streamOf b.byteIn).drop i).take n := by
  induction n with
  | zero => rfl
  | succ n ih =>
    rw [BitChannel.sourceBits, binBits_double_add, ih (by omega), List.take_add_one,
      List.getElem?_drop, streamOf_byteIn_getElem? b (by omega), Option.toList_some]

section Read
variable {n v : Nat} {x : Bool} {b : BitChannel}

/-- With too few bits left nothing is consumed (40_bitchannel.md R127). -/
theorem readBits_of_short (hshort : b.unread.length < n) : readBits n b = .error .endOfStream b := by
  rw [unread_length] at hshort
  exact if_pos hshort

/-- `ReadBits(n)` returns the value whose bits come next, and consumes them (40_bitchannel.md R127). -/
theorem readBits_of_prefix (hv : v < 2 ^ n) (hnext : binBits v n <+: b.unread) :
    readBits n b = .ok v (b.advance n) := by
  have henough : n ≤ b.remaining := by
    simpa [unread_length] using hnext.length_le
  have hinside : n = 0 ∨ b.rdpos + n ≤ 8 * b.byteIn.length := by
    rw [BitChannel.remaining] at henough
    omega
  have hvalue : b.sourceBits b.rdpos n = v := by
    refine binBits_injective (sourceBits_lt _ _ _) hv ?_
    rcases hinside with rfl | hinside
    · rfl
    · rw [binBits_sourceBits b hinside]
      simpa [BitChannel.unread] using (List.prefix_iff_eq_take.mp hnext).symm
  rcases readBits_cases n b with ⟨hfew, _⟩ | ⟨_, hread⟩
  · omega
  · rw [hread, hvalue]

theorem readBit_of_empty (hempty : b.unread = []) : readBit b = .error .endOfStream b := by
  have hread : readBits 1 b = .error .endOfStream b := readBits_of_short (by simp [hempty])
  rw [readBit, bind_of_error hread]

/-- `ReadBit()` returns the next bit and consumes it (40_bitchannel.md R126). -/
theorem readBit_of_prefix (hnext : [x] <+: b.unread) : readBit b = .ok x (b.advance 1) := by
  have hbits : binBits x.toNat 1 = [x] := by cases x <;> rfl
  have hread : readBits 1 b = .ok x.toNat (b.advance 1) :=
    readBits_of_prefix x.toNat_lt (hbits ▸ hnext)
  have hvalue : (x.toNat == 1) = x := by cases x <;> rfl
  rw [readBit, bind_of_ok hread]
  exact congrArg (EStateM.Result.ok · (b.advance 1)) hvalue

end Read

end Sys2Proof.Machine
end

section
/-!
The guards that most commands begin with (60_exceptions.md R308 steps 4 to 6), and the seven BitChannel
commands (40_bitchannel.md R122, R123, R129 to R133).
-/

namespace Sys2Proof.Machine

/-! ### A command's next step -/

section Bind
variable {α : Type} {x : Cmd α} {k : α → Cmd Unit} {a : α} {e : Raise} {s t : State}

theorem execute_bind_ok (hx : x s = .ok a t) : execute (x >>= k) s = execute (k a) t := by
  rw [execute, bind_of_ok hx, execute]

theorem execute_bind_error (hx : x s = .error e t) :
    execute (x >>= k) s = .next (t.raiseError e) := execute_error (bind_of_error hx)

theorem execute_change (f : State → State) (s : State) :
    execute (change f) s = .next (f s).succeed := rfl

end Bind

/-! ### Guards and draws -/

section Guards
variable {c : Prop} [Decidable c] {e : Raise} {ps : List Phase} {ms : List BcMode} {body : Cmd Unit}
  {s : State}

theorem execute_checkFails (hc : c) :
    execute (do raiseIf c e; body) s = .next (s.raiseError e) :=
  execute_bind_error (raiseIf_pos hc e s)

theorem execute_checkPasses (hc : ¬ c) : execute (do raiseIf c e; body) s = execute body s :=
  execute_bind_ok (raiseIf_neg hc e s)

theorem execute_wrongPhase (hphase : s.phase ∉ ps) :
    execute (do needPhase ps; needMode ms; body) s = .next (s.raiseError .wrongPhase) :=
  execute_bind_error (needPhase_error hphase)

theorem execute_wrongMode (hphase : s.phase ∈ ps) (hmode : s.bc.mode ∉ ms) :
    execute (do needPhase ps; needMode ms; body) s = .next (s.raiseError .wrongBcMode) :=
  (execute_bind_ok (needPhase_ok hphase)).trans (execute_bind_error (needMode_error hmode))

theorem execute_guarded (hphase : s.phase ∈ ps) (hmode : s.bc.mode ∈ ms) :
    execute (do needPhase ps; needMode ms; body) s = execute body s :=
  (execute_bind_ok (needPhase_ok hphase)).trans (execute_bind_ok (needMode_ok hmode))

/-- A false IO draw raises with the draw taken (20_memory.md R70). -/
theorem draw_fails (hio : s.ioOk = false) :
    (do let ok ← drawIo; raiseIf (ok = false) e; body) s = .error e s.afterDraw :=
  (bind_of_ok (drawIo_apply s)).trans (bind_of_error (raiseIf_pos hio e _))

theorem draw_succeeds (hio : s.ioOk = true) :
    (do let ok ← drawIo; raiseIf (ok = false) e; body) s = body s.afterDraw :=
  (bind_of_ok (drawIo_apply s)).trans (bind_of_ok (raiseIf_neg (by simp [hio]) e _))

end Guards

/-! ### Opening -/

/-- Both open commands draw before they start a writer or reader (40_bitchannel.md R122, R123). -/
theorem exec_open : ∀ i ∈ [Instr.bcOpenWrite, Instr.bcOpenRead], ∃ start : Cmd Unit, ∀ s,
    exec i s = execute (do
      needPhase [.idle]
      needMode [.idle, .closed]
      let ok ← drawIo
      raiseIf (ok = false) .openFailed
      start) s := by
  simp only [List.forall_mem_cons]
  exact ⟨⟨_, fun _ => rfl⟩, ⟨_, fun _ => rfl⟩, nofun⟩

/-- A true draw starts a new writer (40_bitchannel.md R122). -/
theorem openWriteBody_ok {s : State} (hio : s.ioOk = true) :
    openWriteBody s = .ok () { s.afterDraw with
      bc := { s.bc with byteOut := [], durable := false, wpend := 0, wpos := 0, count := 0,
                        mode := .write } } :=
  draw_succeeds hio

/-- A true draw starts a new reader (40_bitchannel.md R123). -/
theorem openReadBody_ok {s : State} (hio : s.ioOk = true) :
    openReadBody s = .ok () { s.afterDraw with
      bc := { s.bc with rdpos := 0, count := 0, mode := .read } } :=
  draw_succeeds hio

/-- Settles O24: the two guards, the draw, and then the new writer or reader. -/
theorem openCommandsStartAnInstance : Obligations.OpenCommandsStartAnInstance := by
  refine ⟨fun i hi s => ?_, fun s hphase hmode hio => ?_⟩
  · obtain ⟨start, hexec⟩ := exec_open i hi
    rw [hexec]
    refine ⟨fun hphase => ?_, fun hphase hopen => ?_, fun hphase hmode hio => ?_⟩
    · exact execute_wrongPhase (by simpa using hphase)
    · refine execute_wrongMode (by simpa using hphase) ?_
      rcases hopen with hmode | hmode <;> simp [hmode]
    · rw [execute_guarded (by simpa using hphase) (by simpa using hmode)]
      exact execute_error (draw_fails hio)
  · replace hphase : s.phase ∈ [Phase.idle] := by simpa using hphase
    replace hmode : s.bc.mode ∈ [BcMode.idle, .closed] := by simpa using hmode
    exact ⟨(execute_guarded hphase hmode).trans (execute_ok (openWriteBody_ok hio)),
      (execute_guarded hphase hmode).trans (execute_ok (openReadBody_ok hio))⟩

/-! ### Writing and reading bits -/

/-- What the four bit commands begin with, the count of bits being in range: phase IDLE, then the mode
(40_bitchannel.md R130 to R133). -/
theorem raises_of_idleGuard {i : Instr} {s : State} {m : BcMode}
    (hexec : ∃ body, exec i s = execute (do needPhase [.idle]; needMode [m]; body) s) :
    (s.phase ≠ .idle → exec i s = .next (s.raiseError .wrongPhase)) ∧
      (s.phase = .idle → s.bc.mode ≠ m → exec i s = .next (s.raiseError .wrongBcMode)) := by
  obtain ⟨body, hexec⟩ := hexec
  rw [hexec]
  exact ⟨fun hphase => execute_wrongPhase (by simpa using hphase),
    fun hphase hmode => execute_wrongMode (by simpa using hphase) (by simpa using hmode)⟩

section Bits
variable {n : Nat}

theorem not_gt_maxBitCount (hn : n ≤ 32) : ¬ n > Config.maxBitCount := Nat.not_lt.mpr hn

theorem exec_bcWriteBits (hn : n ≤ 32) (s : State) :
    exec (.bcWriteBits n) s = execute (do
      needPhase [.idle]
      needMode [.write]
      change fun s => { s with bc := s.bc.writeBits s.writeValue n }) s :=
  execute_checkPasses (not_gt_maxBitCount hn)

theorem exec_bcReadBits (hn : n ≤ 32) (s : State) :
    exec (.bcReadBits n) s = execute (do
      needPhase [.idle]
      needMode [.read]
      let v ← onChannel (readBits n)
      change fun s => { s with res0 := u32 v }) s :=
  execute_checkPasses (not_gt_maxBitCount hn)

end Bits

/-- Settles O25: after the checks `WriteBits` puts `bin_N(ARG0)`, and `WriteBit` its one bit. -/
theorem writeCommandsPutTheirBits : Obligations.WriteCommandsPutTheirBits := by
  refine ⟨fun n s hn => execute_checkFails hn, fun n s hn => ?_, fun n s hn hphase hmode => ?_,
    fun s hphase hmode => ?_⟩
  · simp only [List.forall_mem_cons]
    exact ⟨raises_of_idleGuard ⟨_, exec_bcWriteBits hn s⟩, raises_of_idleGuard ⟨_, rfl⟩, nofun⟩
  · rw [exec_bcWriteBits hn, execute_guarded (by simpa using hphase) (by simpa using hmode),
      ← writeBits_eq_putBits]
    rfl
  · exact execute_guarded (by simpa using hphase) (by simpa using hmode)

section Read
variable {α : Type} {r : Reader α} {w : α → Word} {a : α} {s : State} {b : BitChannel}

/-- A failed read ends the command before RES0 is written (10_state.md R30). -/
theorem execute_read_error {e : Raise} (hread : r s.bc = .error e s.bc) :
    execute (do let a ← onChannel r; change fun s => { s with res0 := w a }) s =
      .next (s.raiseError e) :=
  execute_bind_error (onChannel_error hread)

theorem execute_read_ok (hread : r s.bc = .ok a b) :
    execute (do let a ← onChannel r; change fun s => { s with res0 := w a }) s =
      .next { s.succeed with res0 := w a, bc := b } :=
  (execute_bind_ok (onChannel_ok hread)).trans (execute_change _ _)

end Read

/-- Settles O26: after the checks `ReadBits` raises on too few bits, and else returns the value whose
bits come next. -/
theorem readCommandsReturnTheNextBits : Obligations.ReadCommandsReturnTheNextBits := by
  refine ⟨fun n s hn => execute_checkFails hn, fun n s hn => ?_, fun n s hn hphase hmode hshort => ?_,
    fun s hphase hmode hempty => ?_, fun n v s hn hphase hmode hv hnext => ?_,
    fun x s hphase hmode hnext => ?_⟩
  · simp only [List.forall_mem_cons]
    exact ⟨raises_of_idleGuard ⟨_, exec_bcReadBits hn s⟩, raises_of_idleGuard ⟨_, rfl⟩, nofun⟩
  · rw [exec_bcReadBits hn, execute_guarded (by simpa using hphase) (by simpa using hmode)]
    exact execute_read_error (readBits_of_short hshort)
  · exact (execute_guarded (by simpa using hphase) (by simpa using hmode)).trans
      (execute_read_error (readBit_of_empty hempty))
  · rw [exec_bcReadBits hn, execute_guarded (by simpa using hphase) (by simpa using hmode)]
    exact execute_read_ok (readBits_of_prefix hv hnext)
  · exact (execute_guarded (by simpa using hphase) (by simpa using hmode)).trans
      (execute_read_ok (readBit_of_prefix hnext))

/-! ### Closing -/

theorem flush_of_aligned {b : BitChannel} (hpos : b.wpos = 0) : b.flush = b := if_pos hpos

theorem flush_of_pending {b : BitChannel} (hpos : b.wpos ≠ 0) :
    b.flush = { b with byteOut := b.byteOut ++ [b.wpend], count := b.count + 1, wpend := 0, wpos := 0 } :=
  if_neg hpos

/-- The phases in which no run has blocks left to code are those of a close (44_container.md R258). -/
theorem mem_closePhases {p : Phase} (henc : p ≠ .encBlocks) (hdec : p ≠ .decBlocks) :
    p ∈ [Phase.idle, .encEnd, .decEnd] := by
  cases p
  case encBlocks => exact absurd rfl henc
  case decBlocks => exact absurd rfl hdec
  all_goals decide

section Close
variable {s : State}

/-- A close that has the durability draw refused keeps the flushed byte (40_bitchannel.md R129). -/
theorem closeSink_failed (hmode : s.bc.mode = .write) (hio : s.ioOk = false) :
    closeSink s = .error .closeFailed { s.afterDraw with bc := s.bc.flush } :=
  (congrFun (if_pos hmode) s).trans (draw_fails (s := { s with bc := s.bc.flush }) hio)

theorem closeSink_writer (hmode : s.bc.mode = .write) (hio : s.ioOk = true) :
    closeSink s = .ok () { s.afterDraw with bc := { s.bc.flush with durable := true } } :=
  (congrFun (if_pos hmode) s).trans (draw_succeeds (s := { s with bc := s.bc.flush }) hio)

/-- A reader's close takes no draw (40_bitchannel.md R129). -/
theorem closeSink_reader (hmode : s.bc.mode = .read) : closeSink s = .ok () s :=
  congrFun (if_neg (by simp [hmode])) s

/-- BC_CLOSE in the phases and modes where it is legal (40_bitchannel.md R129). -/
theorem exec_bcClose (henc : s.phase ≠ .encBlocks) (hdec : s.phase ≠ .decBlocks)
    (hmode : s.bc.mode ∈ [BcMode.write, .read]) :
    exec .bcClose s = execute (do
      closeSink
      change fun s => { s with bc := { s.bc with mode := .closed }, phase := .idle }) s :=
  execute_guarded (mem_closePhases henc hdec) hmode

end Close

/-- Settles O27: the two guards, the writer's part or none, and the release. -/
theorem closeFlushesAndReleases : Obligations.CloseFlushesAndReleases := by
  refine ⟨fun s hphase => ?_, fun s henc hdec hmode => ?_, fun s henc hdec hmode => ?_,
    fun s henc hdec hmode => ?_, fun b => flush_of_aligned, fun b => flush_of_pending⟩
  · refine execute_wrongPhase ?_
    rcases hphase with hphase | hphase <;> simp [hphase]
  · refine execute_wrongMode (mem_closePhases henc hdec) ?_
    rcases hmode with hmode | hmode <;> simp [hmode]
  · rw [exec_bcClose henc hdec (by simp [hmode])]
    exact (execute_bind_ok (closeSink_reader hmode)).trans (execute_change _ _)
  · rw [exec_bcClose henc hdec (by simp [hmode])]
    exact ⟨fun hio => execute_bind_error (closeSink_failed hmode hio),
      fun hio => (execute_bind_ok (closeSink_writer hmode hio)).trans (execute_change _ _)⟩

end Sys2Proof.Machine
end

section
/-!
GR_CONFIG and the guards of the four coding commands (41_golomb.md R156, R160).
-/

namespace Sys2Proof.Machine

/-! ### Constructing the coder -/

section Config
variable {s : State}

/-- GR_CONFIG checks the divisor and the scheme of the state it starts from (41_golomb.md R160). -/
theorem exec_grConfig (s : State) :
    exec .grConfig s = execute (do
      raiseIf (s.configM ≤ 0) .badM
      raiseIf (s.configScheme > 1) .badNeg
      change fun s => { s with
        grM := s.arg0, grNeg := if s.configScheme = 0 then .zigZag else .signMagnitude }) s := rfl

theorem exec_grConfig_badM (hm : s.configM ≤ 0) :
    exec .grConfig s = .next (s.raiseError .badM) := by
  rw [exec_grConfig, execute_checkFails hm]

theorem exec_grConfig_badNeg (hm : 0 < s.configM) (hscheme : 1 < s.configScheme) :
    exec .grConfig s = .next (s.raiseError .badNeg) := by
  rw [exec_grConfig, execute_checkPasses hm.not_ge, execute_checkFails hscheme]

theorem exec_grConfig_constructs (hm : 0 < s.configM) (hscheme : s.configScheme ≤ 1) :
    exec .grConfig s = .next { s.succeed with
      grM := s.arg0, grNeg := if s.configScheme = 0 then .zigZag else .signMagnitude } := by
  rw [exec_grConfig, execute_checkPasses hm.not_ge, execute_checkPasses hscheme.not_gt]
  exact execute_change _ s

end Config

/-- Settles O32: a bad divisor, then a bad scheme, then the two schemes that construct the coder. -/
theorem grConfigConstructsTheCoder : Obligations.GrConfigConstructsTheCoder := by
  refine ⟨fun s hm => exec_grConfig_badM hm, fun s hm hscheme => exec_grConfig_badNeg hm hscheme,
    fun s hm hzero => ?_, fun s hm hone => ?_⟩
  · have hscheme : s.configScheme = 0 := congrArg BitVec.toNat hzero
    rw [exec_grConfig_constructs hm (by omega), if_pos hscheme]
  · have hscheme : s.configScheme = 1 := congrArg BitVec.toNat hone
    rw [exec_grConfig_constructs hm (by omega), if_neg (by omega)]

/-! ### The coder's guards -/

/-- The coder's guards are those of the bit commands, then the check that a coder has been constructed
(41_golomb.md R156). -/
theorem needCoder_bind (m : BcMode) (body : Cmd Unit) :
    (do needCoder m; body) = (do
      needPhase [.idle]
      needMode [m]
      let s ← get
      raiseIf (int32 s.grM ≤ 0) .badM
      body) := by
  simp only [needCoder, bind_assoc]

/-- In phase IDLE and the right mode only the divisor is left to check (41_golomb.md R156). -/
theorem execute_needCoder {m : BcMode} {body : Cmd Unit} {s : State} (hphase : s.phase = .idle)
    (hmode : s.bc.mode = m) :
    execute (do needCoder m; body) s =
      execute (do raiseIf (int32 s.grM ≤ 0) .badM; body) s := by
  rw [needCoder_bind, execute_guarded (by simpa using hphase) (by simpa using hmode),
    execute_bind_ok (get_apply s)]

/-- What a command that begins with the coder's guards raises (41_golomb.md R156). -/
theorem raises_of_needCoder {i : Instr} {s : State} {m : BcMode}
    (hexec : ∃ body, exec i s = execute (do needCoder m; body) s) :
    (s.phase ≠ .idle → exec i s = .next (s.raiseError .wrongPhase)) ∧
      (s.phase = .idle → s.bc.mode ≠ m → exec i s = .next (s.raiseError .wrongBcMode)) ∧
      (s.phase = .idle → s.bc.mode = m → s.grM.toInt ≤ 0 →
        exec i s = .next (s.raiseError .badM)) := by
  obtain ⟨body, hexec⟩ := hexec
  obtain ⟨hwrongPhase, hwrongMode⟩ :=
    raises_of_idleGuard ⟨_, hexec.trans (congrArg (execute · s) (needCoder_bind m body))⟩
  refine ⟨hwrongPhase, hwrongMode, fun hphase hmode hm => ?_⟩
  rw [hexec, execute_needCoder hphase hmode]
  exact execute_checkFails hm

/-- Settles O33: each of the four coding commands begins with the coder's guards. -/
theorem coderGuardsInOrder : Obligations.CoderGuardsInOrder := by
  simp only [Obligations.CoderGuardsInOrder, List.forall_mem_cons]
  exact ⟨fun s => raises_of_needCoder ⟨_, rfl⟩, fun s => raises_of_needCoder ⟨_, rfl⟩,
    fun s => raises_of_needCoder ⟨_, rfl⟩, fun s => raises_of_needCoder ⟨_, rfl⟩, nofun⟩

end Sys2Proof.Machine
end

section
/-!
LP_PREDICT, SD_TO_MS and SD_TO_LR (42_predictor_stereo.md R191, R194, R195): none has a phase or mode
guard, and each computes over the integers and then reduces modulo 2^32.
-/

namespace Sys2Proof.Machine

/-! ### Width conversions and rounding -/

/-- Reading a register as two's complement loses nothing (00_scope.md R12). -/
@[simp] theorem u32_int32 (p : Word) : u32 (int32 p) = p := BitVec.ofInt_toInt

theorem sext16_eq_toInt_lowHalf (p : Word) : sext16 p = (p.extractLsb' 0 16).toInt :=
  congrArg BitVec.toInt (BitVec.setWidth_eq_extractLsb' (by decide))

/-- The arithmetic right shift by one bit is Lean's division of integers by 2 (00_scope.md R13). -/
theorem floorDiv2_eq_ediv (x : Int) : floorDiv2 x = x / 2 := Int.fdiv_eq_ediv_of_nonneg x (by decide)

/-! ### The predictor -/

section Predict
variable {n : Nat} {s : State}

/-- LP_PREDICT checks its order before it predicts (42_predictor_stereo.md R191). -/
theorem exec_lpPredict_badOrder (hn : 3 < n) :
    exec (.lpPredict n) s = .next (s.raiseError .badOrder) := execute_checkFails hn

theorem exec_lpPredict_predicts (hn : n ≤ 3) :
    exec (.lpPredict n) s =
      .next { s.succeed with res0 := u32 (predict n s.history1 s.history2 s.history3) } :=
  (execute_checkPasses (Nat.not_lt.mpr hn)).trans (execute_change _ s)

end Predict

/-- Settles O37: the check of the order, then the four predictions of R190; of order 1's, `s1` itself,
the reduction gives back the register it was read from. -/
theorem lpPredictComputesThePrediction : Obligations.LpPredictComputesThePrediction := by
  refine ⟨fun n s hn => exec_lpPredict_badOrder hn, fun s => ⟨?_, ?_, ?_, ?_⟩⟩
  · exact exec_lpPredict_predicts (by decide)
  · rw [exec_lpPredict_predicts (by decide), predict, State.history1, u32_int32]
  · exact exec_lpPredict_predicts (by decide)
  · exact exec_lpPredict_predicts (by decide)

/-! ### The stereo transform -/

/-- `ToMidSide` with its rounding as integer division (42_predictor_stereo.md R192). -/
theorem toMidSide_eq (l r : Int) : toMidSide l r = ((l + r) / 2, l - r) := by
  rw [toMidSide, floorDiv2_eq_ediv]

/-- `ToLeftRight` with its rounding as integer division (42_predictor_stereo.md R193). -/
theorem toLeftRight_eq (mid side : Int) :
    toLeftRight mid side = (mid + (side + 1) / 2, mid - side / 2) := by
  rw [toLeftRight, floorDiv2_eq_ediv, floorDiv2_eq_ediv]

theorem exec_sdToMs (s : State) :
    exec .sdToMs s = .next { s.succeed with
      res0 := u32 (toMidSide s.left s.right).1
      res1 := u32 (toMidSide s.left s.right).2 } := execute_change _ s

theorem exec_sdToLr (s : State) :
    exec .sdToLr s = .next { s.succeed with
      res0 := u32 (toLeftRight s.mid s.side).1
      res1 := u32 (toLeftRight s.mid s.side).2 } := execute_change _ s

/-- Settles O38: both commands are one change of the results, to the transform of their operands. -/
theorem stereoCommandsComputeTheTransforms : Obligations.StereoCommandsComputeTheTransforms := by
  refine fun s => ⟨?_, ?_⟩
  · rw [exec_sdToMs, toMidSide_eq, State.left, State.right, sext16_eq_toInt_lowHalf,
      sext16_eq_toInt_lowHalf]
    rfl
  · rw [exec_sdToLr, toLeftRight_eq]
    rfl

end Sys2Proof.Machine
end

section
/-!
The estimator's integer form (43_block_codec.md R214): the comparison of partial sums decides `e ≤ p/q`,
so `estimate` is the least `k ≥ 1` with `e ≤ ((S + C)/S)^k`, capped at 1000.
-/

namespace Sys2Proof.Machine

/-! ### The partial sums of e -/

/-- `n!·S_n`, where `S_n` is the sum of `1/i!` for `i ≤ n`: the numerator that `expLeFrom` carries. -/
def expNumerator : Nat → Nat
  | 0 => 1
  | n + 1 => (n + 1) * expNumerator n + 1

theorem expNumerator_eq (n : Nat) :
    (expNumerator n : ℝ) = n.factorial * ∑ i ∈ Finset.range (n + 1), 1 / (i.factorial : ℝ) := by
  induction n with
  | zero => simp [expNumerator]
  | succ n ih =>
    rw [Finset.sum_range_succ, mul_add, mul_one_div_cancel (by positivity), Nat.factorial_succ]
    push_cast [expNumerator]
    rw [ih, mul_assoc]

/-- `S_n < e`: `S_(n+1)` is larger than `S_n` and still at most `e`. -/
theorem expNumerator_lt (n : Nat) : (expNumerator n : ℝ) < n.factorial * Real.exp 1 := by
  have hsum : ∑ i ∈ Finset.range (n + 2), 1 / (i.factorial : ℝ) ≤ Real.exp 1 := by
    simpa using Real.sum_le_exp_of_nonneg zero_le_one (n + 2)
  have hterm : 0 < 1 / ((n + 1).factorial : ℝ) := by positivity
  rw [Finset.sum_range_succ] at hsum
  rw [expNumerator_eq]
  gcongr
  linarith

/-- `e ≤ S_n + 1/(n·n!)`. -/
theorem exp_le_expNumerator {n : Nat} (hn : 0 < n) :
    n * n.factorial * Real.exp 1 ≤ n * expNumerator n + 1 := by
  have hbound := Real.exp_bound' zero_le_one le_rfl hn
  simp only [one_pow, one_mul] at hbound
  calc n * n.factorial * Real.exp 1
      ≤ n * n.factorial * (∑ i ∈ Finset.range n, 1 / (i.factorial : ℝ) +
          (n + 1) / (n.factorial * n)) := by gcongr
    _ = n * expNumerator n + 1 := by
      rw [expNumerator_eq, Finset.sum_range_succ]
      field_simp
      ring

/-! ### The comparison with e -/

section Compare
variable {p q n : Nat}

theorem lt_exp_of_le_expNumerator (h : p * n.factorial ≤ q * expNumerator n) (hq : 0 < q) :
    (p : ℝ) / q < Real.exp 1 := by
  have h' : (p : ℝ) * n.factorial ≤ q * expNumerator n := by exact_mod_cast h
  rw [div_lt_iff₀ (by positivity)]
  refine lt_of_mul_lt_mul_right (h'.trans_lt ?_) (Nat.cast_nonneg n.factorial)
  calc q * (expNumerator n : ℝ) < q * (n.factorial * Real.exp 1) := by gcongr; exact expNumerator_lt n
    _ = Real.exp 1 * q * n.factorial := by ring

theorem exp_le_of_expNumerator_le (h : q * (n * expNumerator n + 1) ≤ p * (n * n.factorial))
    (hq : 0 < q) (hn : 0 < n) : Real.exp 1 ≤ p / q := by
  have h' : (q : ℝ) * (n * expNumerator n + 1) ≤ p * (n * n.factorial) := by exact_mod_cast h
  rw [le_div_iff₀ (by positivity)]
  refine le_of_mul_le_mul_right (le_trans ?_ h') (by positivity)
  calc Real.exp 1 * q * (n * n.factorial) = q * (n * n.factorial * Real.exp 1) := by ring
    _ ≤ q * (n * expNumerator n + 1) := by gcongr; exact exp_le_expNumerator hn

/-- At `n = q` one of the two tests succeeds: they are negations of each other there. So the fuel that
reaches `n = q` never runs out. -/
theorem expLeFrom_iff (hq : 0 < q) (fuel : Nat) : ∀ n, 0 < n → n + fuel = q →
    (expLeFrom p q (fuel + 1) n (expNumerator n) n.factorial ↔ Real.exp 1 ≤ p / q) := by
  induction fuel with
  | zero =>
    rintro n hn rfl
    rw [expLeFrom]
    split
    next hlow => simpa using lt_exp_of_le_expNumerator hlow hq
    next hlow =>
      have hhigh : n * (n * expNumerator n + 1) ≤ p * (n * n.factorial) := by
        rw [Nat.mul_left_comm p]
        exact Nat.mul_le_mul_left n (not_le.mp hlow)
      simpa [hhigh] using exp_le_of_expNumerator_le hhigh hq hn
  | succ fuel ih =>
    intro n hn hfuel
    rw [expLeFrom]
    split
    next hlow => simpa using lt_exp_of_le_expNumerator hlow hq
    next =>
      split
      next hhigh => simpa using exp_le_of_expNumerator_le hhigh hq hn
      next => exact ih (n + 1) n.succ_pos (by omega)

theorem expLe_iff (hq : 0 < q) : expLe p q ↔ Real.exp 1 ≤ p / q := by
  cases q with
  | zero => exact absurd hq (Nat.lt_irrefl 0)
  | succ fuel => exact expLeFrom_iff hq fuel 1 one_pos (Nat.add_comm 1 fuel)

end Compare

/-! ### The least divisor -/

section Estimate
variable {S C k : Nat}

theorem expLe_pow_iff (hS : 0 < S) :
    expLe ((S + C) ^ k) (S ^ k) ↔ Real.exp 1 ≤ (((S : ℝ) + C) / S) ^ k := by
  rw [expLe_iff (Nat.pow_pos hS), div_pow]
  push_cast
  rfl

theorem leastDivisor_isLeast (hS : 0 < S) (fuel k : Nat) :
    IsLeast {j | k ≤ j ∧ (j = k + fuel ∨ Real.exp 1 ≤ (((S : ℝ) + C) / S) ^ j)}
      (leastDivisor S C fuel k ((S + C) ^ k) (S ^ k)) := by
  induction fuel generalizing k with
  | zero => exact ⟨⟨le_rfl, .inl rfl⟩, fun j hj => hj.1⟩
  | succ fuel ih =>
    rw [leastDivisor]
    split
    next hpass => exact ⟨⟨le_rfl, .inr ((expLe_pow_iff hS).mp hpass)⟩, fun j hj => hj.1⟩
    next hfail =>
      rw [← pow_succ, ← pow_succ]
      obtain ⟨⟨hk, hres⟩, hleast⟩ := ih (k + 1)
      refine ⟨⟨by omega, hres.imp_left (by omega)⟩, fun j ⟨hkj, hj⟩ =>
        hleast ⟨?_, hj.imp_left (by omega)⟩⟩
      refine Nat.lt_of_le_of_ne hkj ?_
      rintro rfl
      exact hj.elim (by omega) (hfail ∘ (expLe_pow_iff hS).mpr)

@[simp] theorem estimate_zero_right (S : Nat) : estimate S 0 = 1 := if_pos (.inl rfl)

@[simp] theorem estimate_zero_left (C : Nat) : estimate 0 C = 1 := if_pos (.inr rfl)

/-- The integer form of R214. -/
theorem estimate_isLeast (hS : 0 < S) (hC : 0 < C) :
    IsLeast {k : Nat | 1 ≤ k ∧ (k = 1000 ∨ Real.exp 1 ≤ (((S : ℝ) + C) / S) ^ k)}
      (estimate S C) := by
  have hleast := leastDivisor_isLeast (C := C) hS 999 1
  rw [pow_one, pow_one] at hleast
  rwa [estimate, if_neg (by omega)]

theorem estimate_range (S C : Nat) : 1 ≤ estimate S C ∧ estimate S C ≤ 1000 := by
  rcases S.eq_zero_or_pos with rfl | hS
  · simp
  rcases C.eq_zero_or_pos with rfl | hC
  · simp
  obtain ⟨⟨hpos, -⟩, hleast⟩ := estimate_isLeast hS hC
  exact ⟨hpos, hleast ⟨by decide, .inl rfl⟩⟩

/-- Below the cap the passing candidates are an upper set, because the ratio is at least 1. -/
theorem estimate_le_iff_exp_le_pow (hS : 0 < S) (hC : 0 < C) (hk : 1 ≤ k) (hcap : k < 1000) :
    estimate S C ≤ k ↔ Real.exp 1 ≤ (((S : ℝ) + C) / S) ^ k := by
  obtain ⟨⟨-, hpass⟩, hleast⟩ := estimate_isLeast hS hC
  refine ⟨fun hle => ?_, fun hk' => hleast ⟨hk, .inr hk'⟩⟩
  have hratio : 1 ≤ ((S : ℝ) + C) / S := by
    rw [one_le_div (by positivity)]
    simp
  exact (hpass.resolve_left (by omega)).trans (pow_le_pow_right₀ hratio hle)

end Estimate

end Sys2Proof.Machine
end

section
/-!
The estimator's threshold form and its formula over the reals (43_block_codec.md R214, R216), and
BLK_ESTIMATE (R220). The two forms have the same thresholds: the formula's upper clamp is the cap, and
its lower clamp never acts.
-/

namespace Sys2Proof.Machine

/-! ### The threshold -/

/-- `T_k` as a bound on `alpha`: `alpha ≤ e^(-t)` exactly when `mean ≤ 1/(e^t - 1)` (R214, R216). -/
theorem div_add_one_le_exp_neg_iff {x t : ℝ} (hx : 0 ≤ x) (ht : 0 < t) :
    x / (x + 1) ≤ Real.exp (-t) ↔ x ≤ 1 / (Real.exp t - 1) := by
  have hexp : 0 < Real.exp t - 1 := by simpa using ht
  rw [Real.exp_neg, ← one_div, div_le_div_iff₀ (by positivity) (by positivity), le_div_iff₀ hexp]
  constructor <;> intro h <;> linarith

/-- `e ≤ r^k` exactly when `e^(1/k) ≤ r`. -/
theorem exp_one_le_pow_iff {r : ℝ} {k : Nat} (hr : 0 ≤ r) (hk : k ≠ 0) :
    Real.exp 1 ≤ r ^ k ↔ Real.exp (1 / k) ≤ r := by
  have hpow : Real.exp (1 / k) ^ k = Real.exp 1 := by
    rw [← Real.exp_nat_mul, mul_one_div_cancel (by positivity)]
  rw [← hpow, pow_le_pow_iff_left₀ (by positivity) hr hk]

/-- The threshold form of R214. -/
theorem estimate_le_iff {S C k : Nat} (hC : 0 < C) (hk : 1 ≤ k) (hcap : k < 1000) :
    estimate S C ≤ k ↔ (S : ℝ) / C ≤ 1 / (Real.exp (1 / k) - 1) := by
  have hexp : 0 < Real.exp (1 / k) - 1 := by
    rw [sub_pos, Real.one_lt_exp_iff]
    positivity
  rcases S.eq_zero_or_pos with rfl | hS
  · simp [hk]
  rw [estimate_le_iff_exp_le_pow hS hC hk hcap, exp_one_le_pow_iff (by positivity) (by omega),
    le_div_iff₀ (by positivity), div_le_div_iff₀ (by positivity) hexp]
  constructor <;> intro h <;> linarith

/-! ### The formula over the reals -/

/-- `alpha` clamped (43_block_codec.md R214). -/
noncomputable def clampAlpha (a : ℝ) : ℝ := min (max a (1 / 1000)) (999 / 1000)

/-- `⌈-1/ln a⌉ ≤ k` exactly when `a ≤ e^(-1/k)`. -/
theorem neg_one_div_log_le_iff {a : ℝ} {k : Nat} (ha : 0 < a) (ha' : a < 1) (hk : 1 ≤ k) :
    -1 / Real.log a ≤ k ↔ a ≤ Real.exp (-(1 / k)) := by
  have hlog : Real.log a < 0 := Real.log_neg ha ha'
  rw [div_le_iff_of_neg hlog, ← Real.log_le_iff_le_exp ha, ← neg_div, le_div_iff₀ (by positivity),
    mul_comm]

/-- The upper clamp acts as the cap: `0.999 ≤ e^(-1/k)` exactly from `k = 1000` on. -/
theorem upperClamp_le_exp_iff {k : Nat} (hk : 1 ≤ k) :
    (999 / 1000 : ℝ) ≤ Real.exp (-(1 / k)) ↔ 1000 ≤ k := by
  have hk' : (0 : ℝ) < k := by positivity
  constructor
  · intro h
    have hexp : 1 / (k : ℝ) + 1 < 1000 / 999 :=
      calc 1 / (k : ℝ) + 1 < Real.exp (1 / k) := Real.add_one_lt_exp (by positivity)
        _ = (Real.exp (-(1 / k)))⁻¹ := by rw [Real.exp_neg, inv_inv]
        _ ≤ (999 / 1000)⁻¹ := by gcongr
        _ = 1000 / 999 := by norm_num
    have hlt : (999 : ℝ) < k := by
      rw [← one_div_lt_one_div hk' (by norm_num)]
      linarith
    exact_mod_cast hlt
  · intro h
    have hinv : 1 / (k : ℝ) ≤ 1 / 1000 := by gcongr; exact_mod_cast h
    linarith [Real.one_sub_le_exp_neg (1 / (k : ℝ))]

/-- The lower clamp never acts: `0.001` is below every threshold. -/
theorem lowerClamp_le_exp {k : Nat} (hk : 1 ≤ k) : (1 / 1000 : ℝ) ≤ Real.exp (-(1 / k)) := by
  have hinv : 1 / (k : ℝ) ≤ 1 := by
    rw [div_le_one (by positivity)]
    exact_mod_cast hk
  calc (1 / 1000 : ℝ) ≤ 3⁻¹ := by norm_num
    _ ≤ (Real.exp 1)⁻¹ := by gcongr; exact Real.exp_one_lt_three.le
    _ = Real.exp (-1) := (Real.exp_neg 1).symm
    _ ≤ Real.exp (-(1 / k)) := by gcongr

theorem clampAlpha_le_exp_iff {a : ℝ} {k : Nat} (hk : 1 ≤ k) :
    clampAlpha a ≤ Real.exp (-(1 / k)) ↔ a ≤ Real.exp (-(1 / k)) ∨ 1000 ≤ k := by
  rw [clampAlpha, min_le_iff, max_le_iff, upperClamp_le_exp_iff hk,
    and_iff_left (lowerClamp_le_exp hk)]

theorem clampAlpha_pos (a : ℝ) : 0 < clampAlpha a :=
  lt_min (lt_max_of_lt_right (by norm_num)) (by norm_num)

theorem clampAlpha_lt_one (a : ℝ) : clampAlpha a < 1 := (min_le_right _ _).trans_lt (by norm_num)

/-- The estimate and the formula have the same upper bounds. -/
theorem formula_le_iff_estimate_le {S C k : Nat} (hC : 0 < C) (hk : 1 ≤ k) :
    -1 / Real.log (clampAlpha ((S : ℝ) / C / ((S : ℝ) / C + 1))) ≤ k ↔ estimate S C ≤ k := by
  rw [neg_one_div_log_le_iff (clampAlpha_pos _) (clampAlpha_lt_one _) hk, clampAlpha_le_exp_iff hk]
  rcases lt_or_ge k 1000 with hcap | hcap
  · rw [or_iff_left (by omega), div_add_one_le_exp_neg_iff (by positivity) (by positivity),
      estimate_le_iff hC hk hcap]
  · exact iff_of_true (.inr hcap) ((estimate_range S C).2.trans hcap)

/-- A number at least 1 with the upper bounds of `y` is `max(⌈y⌉, 1)`. -/
theorem eq_max_ceil_one {y : ℝ} {n : Nat} (hn : 1 ≤ n) (h : ∀ k : Nat, 1 ≤ k → (y ≤ k ↔ n ≤ k)) :
    (n : ℤ) = max ⌈y⌉ 1 := by
  apply le_antisymm
  · obtain ⟨m, hm⟩ := Int.eq_ofNat_of_zero_le (zero_le_one.trans (le_max_right ⌈y⌉ 1))
    have hym : ⌈y⌉ ≤ m := hm ▸ le_max_left ⌈y⌉ 1
    have hm1 : (1 : ℤ) ≤ m := hm ▸ le_max_right ⌈y⌉ 1
    rw [hm]
    exact_mod_cast (h m (by exact_mod_cast hm1)).mp (Int.ceil_le.mp hym)
  · exact max_le (Int.ceil_le.mpr ((h n hn).mpr le_rfl)) (by exact_mod_cast hn)

/-- Settles O41: the integer form by induction on the candidates, with `e ≤ p/q` decided from the partial
sums of `1/i!`; the formula has the same upper bounds, so it is the same number. -/
theorem estimatorIsTheExactFormula : Obligations.EstimatorIsTheExactFormula :=
  ⟨estimate_zero_right,
    fun S C hC => eq_max_ceil_one (estimate_range S C).1 fun _ hk => formula_le_iff_estimate_le hC hk,
    estimate_zero_left, fun _ _ => estimate_isLeast, fun _ _ _ => estimate_le_iff⟩

/-! ### BLK_ESTIMATE -/

theorem exec_blkEstimate (s : State) :
    exec .blkEstimate s =
      .next { s.succeed with res0 := u32 (estimate s.estimateSum s.estimateCount) } :=
  execute_change _ s

/-- Settles O43: the command is one change of RES0 to the estimate of its operands; the rule's examples
are evaluated. -/
theorem blkEstimateReturnsTheEstimate : Obligations.BlkEstimateReturnsTheEstimate := by
  refine ⟨fun s => ?_, estimate_zero_right, estimate_zero_left, ?_⟩
  · rw [exec_blkEstimate, u32, BitVec.ofInt_natCast]
    rfl
  · decide +kernel

end Sys2Proof.Machine
end

section
/-!
`ValidateCfg()` and the two commands that begin with it (44_container.md R250, R252, R256).
-/

namespace Sys2Proof.Machine

/-- Past their guards both encoding commands come to `ValidateCfg()` (44_container.md R252, R256). -/
theorem exec_of_startsEncoding {i : Instr} {s : State} (hstarts : Claims.StartsEncoding i s) :
    ∃ body, exec i s = execute (do validateCfg; body) s := by
  obtain ⟨hphase, ⟨rfl, hmode⟩ | ⟨rfl, hmode⟩⟩ := hstarts
  all_goals exact ⟨_, execute_guarded (by simpa using hphase) (by simpa using hmode)⟩

/-- The checks read the state that the command starts from, each before the rest of the command
(44_container.md R250). -/
theorem execute_validateCfg (body : Cmd Unit) (s : State) :
    execute (do validateCfg; body) s = execute (do
      raiseIf (s.cfg.blockSize = 0) .badBlockSize
      raiseIf (s.cfg.channels ≠ 1 ∧ s.cfg.channels ≠ 2) .badChannels
      raiseIf (s.cfg.order.toNat > Config.maxOrder) .badOrder
      raiseIf (s.cfg.neg.toNat > 1) .badNeg
      raiseIf (s.cfg.dynamic = 0 ∧ int32 s.cfg.staticM ≤ 0) .badM
      raiseIf (s.pcmIn.length ≠ s.cfg.channels.toNat * s.cfg.totalFrames.toNat) .pcmLength
      body) s := by
  simp only [validateCfg, bind_assoc]
  exact execute_bind_ok (get_apply s)

section Passes
variable {h : Header}

theorem channels_pass (hchannels : h.channels = 1 ∨ h.channels = 2) :
    ¬ (h.channels ≠ 1 ∧ h.channels ≠ 2) := fun ⟨hmono, hstereo⟩ => hchannels.elim hmono hstereo

theorem order_passes (horder : h.order.toNat ≤ 3) : ¬ h.order.toNat > Config.maxOrder :=
  Nat.not_lt.mpr horder

theorem staticM_passes (hm : h.dynamic = 0 → 0 < int32 h.staticM) :
    ¬ (h.dynamic = 0 ∧ int32 h.staticM ≤ 0) := fun ⟨hstatic, hbad⟩ => (hm hstatic).not_ge hbad

end Passes

/-- Settles O47: the checks before the failing one pass, and the failing one raises from the state that
the command starts from. -/
theorem configurationIsCheckedInOrder : Obligations.ConfigurationIsCheckedInOrder := by
  intro i s hstarts
  obtain ⟨body, hexec⟩ := exec_of_startsEncoding hstarts
  rw [hexec, execute_validateCfg]
  refine ⟨fun hsize => execute_checkFails hsize, fun hsize hmono hstereo => ?_,
    fun hsize hchannels horder => ?_, fun hsize hchannels horder hneg => ?_,
    fun hsize hchannels horder hneg hstatic hm => ?_,
    fun ⟨hsize, hchannels, horder, hneg, hm⟩ hlength => ?_⟩
  · rw [execute_checkPasses hsize]
    exact execute_checkFails ⟨hmono, hstereo⟩
  · rw [execute_checkPasses hsize, execute_checkPasses (channels_pass hchannels)]
    exact execute_checkFails horder
  · rw [execute_checkPasses hsize, execute_checkPasses (channels_pass hchannels),
      execute_checkPasses (order_passes horder)]
    exact execute_checkFails hneg
  · rw [execute_checkPasses hsize, execute_checkPasses (channels_pass hchannels),
      execute_checkPasses (order_passes horder), execute_checkPasses hneg.not_gt]
    exact execute_checkFails ⟨hstatic, hm⟩
  · rw [execute_checkPasses hsize, execute_checkPasses (channels_pass hchannels),
      execute_checkPasses (order_passes horder), execute_checkPasses hneg.not_gt,
      execute_checkPasses (staticM_passes hm)]
    exact execute_checkFails hlength

end Sys2Proof.Machine
end

section
/-!
The recorded error over one step (60_exceptions.md R314): a host move keeps it unless it is hardware
reset, and the core's turn keeps it unless it runs the word of SOFT_RESET.
-/

namespace Sys2Proof.Machine

/-! ### The host's moves -/

/-- A command word, issued or dropped, clears no error (30_encoding.md R80). -/
@[simp] theorem State.writeCmd_error (v : Word) (s : State) : (s.writeCmd v).error = s.error := by
  rcases writeCmd_cases v s with ⟨_, _, hdrop⟩ | ⟨_, hissue⟩
  · rw [hdrop]
  · rw [hissue, State.issue_error]

/-- No register write touches the recorded error (20_memory.md R63). -/
@[simp] theorem State.writeReg_error (v : Word) (s : State) (r : Reg) :
    (s.writeReg v r).error = s.error := by
  cases r
  case cmd => exact s.writeCmd_error v
  all_goals rfl

@[simp] theorem State.hostRead_error (r : Reg) (s : State) : (s.hostRead r).error = s.error := by
  unfold State.hostRead; split <;> rfl

@[simp] theorem State.hostTakeBytes_error (s : State) : s.hostTakeBytes.error = s.error := by
  unfold State.hostTakeBytes; split <;> rfl

@[simp] theorem State.hostTakeSamples_error (s : State) : s.hostTakeSamples.error = s.error := by
  unfold State.hostTakeSamples; split <;> rfl

/-- Of the host's moves only hardware reset touches the recorded error (60_exceptions.md R314). -/
theorem hostMove_error {ev : HostEvent} {s t : State} (hmove : hostMove ev s = .next t)
    (hev : ev ≠ .hardReset) : t.error = s.error := by
  cases ev <;> simp only [hostMove] at hmove
  case write off size v =>
    split at hmove
    · cases hmove
    · split at hmove <;> cases hmove
      exact State.writeReg_error ..
  case read off size =>
    split at hmove <;> cases hmove
    exact State.hostRead_error ..
  case takeBytes => cases hmove; exact s.hostTakeBytes_error
  case takeSamples => cases hmove; exact s.hostTakeSamples_error
  case supplyBytes bs => split at hmove <;> cases hmove; rfl
  case supplySamples xs => split at hmove <;> cases hmove; rfl
  case hardReset => exact absurd rfl hev

/-! ### The turns -/

section Turns
variable {s t u : State}

/-- Taking the turn off the list leaves the word in flight and the recorded error (log 1). -/
theorem nextTurn_keeps_cur_error {a : Turn} (hturn : s.nextTurn = (a, t)) :
    t.cur = s.cur ∧ t.error = s.error := by
  have ht : t = { s with sched := s.sched.tail } := by rw [← nextTurn_eq, hturn]
  subst ht
  exact ⟨rfl, rfl⟩

/-- When the host moves next, the step is its move (log 1). -/
theorem step_eq_hostMove {ev : HostEvent} (hturn : s.nextTurn = (.host ev, t)) :
    step s = hostMove ev t := by
  simp only [step, hturn]

theorem coreTurn_idle (hidle : s.cur = none) : coreTurn s = .next s := by
  simp only [coreTurn, hidle]

/-- The word 0x00000001 is SOFT_RESET's, and leaves no error recorded (70_reset_and_hazards.md R341). -/
theorem coreTurn_softReset (hword : s.cur = some 0x00000001#32) :
    coreTurn s = .next s.coreReset.succeed := by
  have hdecode : decode 0x00000001#32 = .ok .softReset := by decide
  simp only [coreTurn, hword, hdecode, exec_softReset]

end Turns

/-- Settles O17: with an error recorded the handshake invariant leaves the core nothing to run but the
word of SOFT_RESET. -/
theorem errorsAreStickyUntilReset : Obligations.ErrorsAreStickyUntilReset := by
  refine ⟨fun s e v hready herror hv => ?_, fun s u e hinv herror hstep => ?_⟩
  · rw [hostMove_write_cmd hready, writeCmd_dropped herror hv]
  obtain ⟨_, herred, _⟩ := hinv
  obtain ⟨_, hword⟩ := herred (by rw [herror]; rfl)
  rcases hturn : s.nextTurn with ⟨agent, t⟩
  obtain ⟨hcur, hkept⟩ := nextTurn_keeps_cur_error hturn
  cases agent with
  | core =>
    rw [step_eq_coreTurn hturn] at hstep
    rcases hword with hidle | hreset
    · cases (coreTurn_idle (hcur.trans hidle)).symm.trans hstep
      exact .inl (hkept.trans herror)
    · cases (coreTurn_softReset (hcur.trans hreset)).symm.trans hstep
      exact .inr ⟨rfl, .inl ⟨rfl, hreset⟩⟩
  | host ev =>
    rw [step_eq_hostMove hturn] at hstep
    by_cases hev : ev = .hardReset
    · subst hev
      cases hstep
      exact .inr ⟨rfl, .inr rfl⟩
    · exact .inl ((hostMove_error hstep hev).trans (hkept.trans herror))

end Sys2Proof.Machine
end

section
/-!
The reset values (70_reset_and_hazards.md R341, R342): every element is a field of the reset record or
a view of such fields, and SOFT_RESET is the core's reset followed by success.
-/

namespace Sys2Proof.Machine

/-- BC_STATE shows 0 in IDLE, whatever the cursors hold (10_state.md R31). -/
theorem BitChannel.stateWord_of_idle {b : BitChannel} (hmode : b.mode = .idle) : b.stateWord = 0 := by
  rw [BitChannel.stateWord, hmode]
  rfl

/-- STATUS is 0 with DONE 0, no error recorded, BCMODE IDLE and PHASE IDLE (10_state.md R23 to R33). -/
theorem State.statusIdle_eq_zero {s : State} (hdone : s.done = false) (herror : s.error = none)
    (hmode : s.bc.mode = .idle) (hphase : s.phase = .idle) : s.statusIdle = 0 := by
  simp only [State.statusIdle, State.err, State.errcode, State.detail, hdone, herror, hmode, hphase]
  rfl

/-- Settles O20: the elements of the table are fields of the reset record, ERR, ERRCODE and DETAIL are
read from its empty `error`, and BC_STATE and STATUS follow from the fields they show. -/
theorem resetValuesAreTheTable : Obligations.ResetValuesAreTheTable := by
  have hstate : State.reset.bc.stateWord = 0 := BitChannel.stateWord_of_idle rfl
  have hstatus : State.reset.readReg .status = 0 := State.statusIdle_eq_zero rfl rfl rfl rfl
  exact ⟨rfl, rfl, rfl, rfl, rfl, rfl, rfl, rfl, rfl, rfl, rfl, rfl, rfl, hstate, rfl, rfl, rfl, rfl,
    rfl, rfl, rfl, rfl, rfl, rfl, rfl, rfl, rfl, rfl, rfl, hstatus⟩

/-- Settles O22: SOFT_RESET succeeds from the core's reset, which keeps the five streams and the model's
own fields. -/
theorem softResetKeepsTheHostStreams : Obligations.SoftResetKeepsTheHostStreams := by
  intro s
  calc exec .softReset s
    _ = .next s.coreReset.succeed := exec_softReset s
    _ = _ := rfl

end Sys2Proof.Machine
end

section
/-!
The decoder and the encoder as inverses, and the match and mask table (30_encoding.md Part A): a command
is told by its opcode and its `N`, and a word by the three fields of 10_state.md R22.
-/

namespace Sys2Proof.Machine

open Sys2Proof.Claims

/-! ### Words and fields -/

/-- OP, N and RSVD make up the word (10_state.md R22). -/
theorem toNat_eq_fields (v : Word) :
    v.toNat = opField v + 256 * nField v + 16384 * rsvdField v := by
  simp only [opField, nField, rsvdField]
  omega

theorem word_ext_fields {v w : Word} (hop : opField v = opField w) (hn : nField v = nField w)
    (hrsvd : rsvdField v = rsvdField w) : v = w :=
  BitVec.eq_of_toNat_eq (by rw [toNat_eq_fields v, toNat_eq_fields w, hop, hn, hrsvd])

theorem opcodeOf_lt (i : Instr) : opcodeOf i < 256 := by cases i <;> simp [opcodeOf]

/-- The fields of a command's word are its opcode, its `N` and 0 (30_encoding.md R84). -/
theorem encode_fields {i : Instr} (hwf : i.wf = true) :
    opField (encode i) = opcodeOf i ∧ nField (encode i) = i.fieldN ∧ rsvdField (encode i) = 0 :=
  Laws.Encoding.of_opcode (opcodeOf_lt i) hwf

/-- A row that says "N unused" has the field 0 (30_encoding.md R83). -/
theorem fieldN_of_unused {i : Instr} (hunused : usesN i = false) : i.fieldN = 0 := by
  cases i
  case bcWriteBits | bcReadBits | lpPredict => cases hunused
  all_goals rfl

/-- The opcode map finds each command by its opcode and its `N` (30_encoding.md R84). -/
theorem commandOf_opcodeOf (i : Instr) : commandOf (opcodeOf i) i.fieldN = some i := by
  cases i <;> rfl

/-- A word decodes to a well-formed command exactly when it is that command's word. -/
theorem decode_eq_ok_iff (v : Word) (i : Instr) : decode v = .ok i ↔ i.wf = true ∧ encode i = v := by
  constructor
  · intro hd
    have hi := commandOf_of_decode hd
    have hgood : ¬ BadBits v i := fun hbad => by
      cases (decode_of_badBits hi hbad).symm.trans hd
    obtain ⟨hrsvd, hunused⟩ := not_or.mp hgood
    have hn : i.fieldN = nField v := by
      cases hused : usesN i with
      | true => exact fieldN_commandOf hi hused
      | false => rw [fieldN_of_unused hused, not_not.mp fun hne => hunused ⟨hused, hne⟩]
    have hwf : i.wf = true := by
      have hlt : nField v < 64 := Nat.mod_lt _ (by decide)
      simpa [Instr.wf, hn] using hlt
    obtain ⟨hop', hn', hrsvd'⟩ := encode_fields hwf
    exact ⟨hwf, word_ext_fields (hop'.trans (opcodeOf_commandOf hi)) (hn'.trans hn)
      (hrsvd'.trans (not_not.mp hrsvd).symm)⟩
  · rintro ⟨hwf, rfl⟩
    obtain ⟨hop, hn, hrsvd⟩ := encode_fields hwf
    refine decode_of_goodBits (by rw [hop, hn, commandOf_opcodeOf]) ?_
    rintro (hbad | ⟨hunused, hbad⟩)
    · exact hbad hrsvd
    · exact hbad (hn.trans (fieldN_of_unused hunused))

/-- Settles O1: the word's fields are the command's, and they select it. -/
theorem decodeInvertsEncode : Obligations.DecodeInvertsEncode := fun i hwf =>
  (decode_eq_ok_iff _ i).mpr ⟨hwf, rfl⟩

/-- Settles O2: the command's fields are the word's, so they build the same word. -/
theorem encodeInvertsDecode : Obligations.EncodeInvertsDecode := fun v i =>
  (decode_eq_ok_iff v i).mp

/-! ### The match and mask table -/

/-- A word matches the row of `i`: the opcode and the bits that the row fixes at 0
(30_encoding.md R83, R84). -/
theorem rowOf_matches_iff (v : Word) (i : Instr) :
    v &&& (rowOf i).maskBits = (rowOf i).matchBits ↔ opField v = opcodeOf i ∧ ¬ BadBits v i := by
  have hlt := opcodeOf_lt i
  have hword := toNat_eq_fields v
  have hopField : opField v < 256 := Nat.mod_lt _ (by decide)
  have hmatch : ((rowOf i).matchBits).toNat = opcodeOf i := by
    simp only [rowOf, BitVec.toNat_ofNat]
    omega
  rw [← BitVec.toNat_inj, hmatch, BadBits]
  cases hused : usesN i with
  | false =>
    have hmask : v &&& (rowOf i).maskBits = v := by
      simp only [rowOf, hused]
      exact BitVec.and_allOnes
    rw [hmask]
    simp only [true_and]
    omega
  | true =>
    have hmask : (v &&& (rowOf i).maskBits).toNat = v.toNat &&& 0xFFFFC0FF := by
      simp [rowOf, hused, BitVec.toNat_and]
    have hlow : (v.toNat &&& 0xFFFFC0FF) % 256 = opField v := by
      rw [show 256 = 2 ^ 8 from rfl, Nat.and_mod_two_pow]
      exact Nat.and_two_pow_sub_one_of_lt_two_pow (n := 8) (Nat.mod_lt _ (by decide))
    have hmid : (v.toNat &&& 0xFFFFC0FF) / 256 % 64 = 0 := by
      rw [show 256 = 2 ^ 8 from rfl, show 64 = 2 ^ 6 from rfl, Nat.and_div_two_pow, Nat.and_mod_two_pow]
      exact Nat.and_zero _
    have hhigh : (v.toNat &&& 0xFFFFC0FF) / 16384 = rsvdField v := by
      have hfits : rsvdField v < 2 ^ 18 := by
        have := v.isLt
        simp only [rsvdField]
        omega
      rw [show 16384 = 2 ^ 14 from rfl, Nat.and_div_two_pow]
      exact Nat.and_two_pow_sub_one_of_lt_two_pow (n := 18) hfits
    rw [hmask]
    simp only [Bool.true_eq_false, false_and, or_false]
    omega

/-- The rows are told by their opcodes (30_encoding.md R84). -/
theorem rowOf_eq_of_opcode : ∀ i ∈ commandsWith 0, ∀ j ∈ commandsWith 0,
    opcodeOf i = opcodeOf j → rowOf i = rowOf j := by decide

/-- Which bits must be zero is told by the opcode (30_encoding.md R84). -/
theorem badBits_congr {v : Word} {i j : Instr} (hop : opcodeOf i = opcodeOf j) :
    BadBits v i ↔ BadBits v j := by
  have hused : usesN i = usesN j := by
    rw [Bool.eq_iff_iff, usesN_iff_mem_countedOps, usesN_iff_mem_countedOps, hop]
  rw [BadBits, BadBits, hused]

/-- A word decodes exactly when the row of a command of the map matches it. -/
theorem decodes_iff_row (v : Word) :
    (∃ i, decode v = .ok i) ↔ ∃ i ∈ commandsWith 0, opField v = opcodeOf i ∧ ¬ BadBits v i := by
  rcases decode_cases v with ⟨hreserved, herror⟩ | ⟨i, hi, hbits⟩
  · refine iff_of_false (fun ⟨i, hok⟩ => by cases herror.symm.trans hok) ?_
    rintro ⟨j, hj, hop, _⟩
    exact (reservedOp_iff_not_mem _ 0).mp hreserved (hop ▸ List.mem_map_of_mem hj)
  · have hop : opcodeOf i = opField v := opcodeOf_commandOf hi
    have hdecodes : (∃ i, decode v = .ok i) ↔ ¬ BadBits v i := by
      rcases hbits with ⟨hbad, herror⟩ | ⟨hgood, hok⟩
      · exact iff_of_false (fun ⟨i, hok⟩ => by cases herror.symm.trans hok) (not_not.mpr hbad)
      · exact iff_of_true ⟨i, hok⟩ hgood
    have hmapped : opField v ∈ (commandsWith 0).map opcodeOf := by
      rw [commandsWith_opcodes, ← commandsWith_opcodes (nField v), ← hop]
      exact List.mem_map_of_mem (List.mem_of_find?_eq_some hi)
    obtain ⟨j, hj, hopj⟩ := List.mem_map.mp hmapped
    rw [hdecodes]
    refine ⟨fun hgood => ⟨j, hj, hopj.symm, mt (badBits_congr (hopj.trans hop.symm)).mp hgood⟩, ?_⟩
    rintro ⟨j, _, hopj, hgood⟩
    exact mt (badBits_congr (hop.trans hopj)).mp hgood

/-- Settles O3: a row matches by the opcode and the bits it fixes, which is when a word decodes, and
opcodes tell the rows apart. -/
theorem decodableWordsMatchOneTableRow : Obligations.DecodableWordsMatchOneTableRow := by
  refine ⟨fun v => ?_, fun v r hr r' hr' hmatch hmatch' => ?_⟩
  · rw [decodes_iff_row, opcodeTable]
    simp only [List.mem_map, exists_exists_and_eq_and, rowOf_matches_iff]
  · obtain ⟨i, hi, rfl⟩ := List.mem_map.mp hr
    obtain ⟨j, hj, rfl⟩ := List.mem_map.mp hr'
    obtain ⟨hop, _⟩ := (rowOf_matches_iff v i).mp hmatch
    obtain ⟨hop', _⟩ := (rowOf_matches_iff v j).mp hmatch'
    exact rowOf_eq_of_opcode i hi j hj (hop.symm.trans hop')

/-- Settles O6: each word is decoded by evaluation. -/
theorem sampleWordsDecode : Obligations.SampleWordsDecode := by
  unfold Obligations.SampleWordsDecode
  decide

end Sys2Proof.Machine
end

section
/-!
The step against the turns (10_state.md R20; log 1), and the stability of the inputs
(70_reset_and_hazards.md R353).
-/

namespace Sys2Proof.Machine

/-! ### Turns -/

theorem nextTurn_of_nil {s : State} (hnone : s.sched = []) : s.nextTurn = (.core, s) := by
  rcases nextTurn_cases s with ⟨_, hturn⟩ | ⟨t, rest, hsome, _⟩
  · exact hturn
  · cases hnone.symm.trans hsome

theorem nextTurn_of_cons {s : State} {t : Turn} {rest : List Turn} (hsome : s.sched = t :: rest) :
    s.nextTurn = (t, { s with sched := rest }) := by
  rcases nextTurn_cases s with ⟨hnone, _⟩ | ⟨t', rest', hsome', hturn⟩
  · cases hnone.symm.trans hsome
  · cases hsome.symm.trans hsome'
    exact hturn

/-- Settles O7: a step is the turn that is taken, and an issued word is in flight on the core's turn. -/
theorem stepRunsTheDecodedInstruction : Obligations.StepRunsTheDecodedInstruction := by
  refine ⟨fun s t v i => step_of_decode_ok, fun s t hturn hidle => ?_,
    fun s t ev hturn => step_eq_hostMove hturn, fun s => nextTurn_of_nil,
    fun s t rest => nextTurn_of_cons, fun s nbits w i hd => ?_⟩
  · rw [step_eq_coreTurn hturn, coreTurn_idle hidle]
  · exact step_of_decode_ok (nextTurn_of_cons rfl) rfl hd

/-! ### The inputs -/

/-- What a move of the host can do to the inputs: hardware reset and every look keep both, and each
supply sets its own, outside its window (70_reset_and_hazards.md R340, R353). -/
theorem hostMove_inputs {ev : HostEvent} {s t : State} (hmove : hostMove ev s = .next t) :
    (t.bc.byteIn = s.bc.byteIn ∨ s.byteInFixed = false) ∧
      (t.pcmIn = s.pcmIn ∨ s.pcmInFixed = false) := by
  have hkept : ∀ {u : State}, u.bc.byteIn = s.bc.byteIn → u.pcmIn = s.pcmIn →
      (u.bc.byteIn = s.bc.byteIn ∨ s.byteInFixed = false) ∧
        (u.pcmIn = s.pcmIn ∨ s.pcmInFixed = false) := fun hbytes hpcm => ⟨.inl hbytes, .inl hpcm⟩
  cases ev <;> simp only [hostMove] at hmove
  case write off size v =>
    split at hmove
    · cases hmove
    next r _ =>
      split at hmove <;> cases hmove
      cases r
      case cmd =>
        rw [State.writeReg]
        rcases writeCmd_cases v s with ⟨_, _, hdrop⟩ | ⟨_, hissue⟩
        · rw [hdrop]; exact hkept rfl rfl
        · rw [hissue]; exact hkept rfl rfl
      all_goals exact hkept rfl rfl
  case read off size =>
    split at hmove <;> cases hmove
    unfold State.hostRead
    split <;> exact hkept rfl rfl
  case takeBytes =>
    cases hmove
    unfold State.hostTakeBytes
    split <;> exact hkept rfl rfl
  case takeSamples =>
    cases hmove
    unfold State.hostTakeSamples
    split <;> exact hkept rfl rfl
  case supplyBytes bs =>
    split at hmove <;> cases hmove
    next hfree => exact ⟨.inr (Bool.eq_false_iff.mpr hfree), .inl rfl⟩
  case supplySamples xs =>
    split at hmove <;> cases hmove
    next hfree => exact ⟨.inl rfl, .inr (Bool.eq_false_iff.mpr hfree)⟩
  case hardReset =>
    cases hmove
    exact hkept rfl rfl

section Windows
variable {s : State}

theorem byteInFixed_of_read (hmode : s.bc.mode = .read) : s.byteInFixed = true := by
  simp [State.byteInFixed, hmode]

theorem pcmInFixed_of_encoding (hphase : s.phase = .encBlocks ∨ s.phase = .encEnd) :
    s.pcmInFixed = true := by
  rcases hphase with hphase | hphase <;> simp [State.pcmInFixed, hphase]

theorem inputsFixed_of_busy (hbusy : s.cur.isSome = true) :
    s.byteInFixed = true ∧ s.pcmInFixed = true := by
  simp [State.byteInFixed, State.pcmInFixed, State.busy, hbusy]

/-- Inside its window the supply of BYTE_IN is refused (70_reset_and_hazards.md R353). -/
theorem supplyBytes_refused (hfixed : s.byteInFixed = true) (bs : List Byte) :
    hostMove (.supplyBytes bs) s = .refused .inputMustBeStable := if_pos hfixed

theorem supplySamples_refused (hfixed : s.pcmInFixed = true) (xs : List Sample) :
    hostMove (.supplySamples xs) s = .refused .inputMustBeStable := if_pos hfixed

/-- Outside it the supply sets BYTE_IN and nothing else (20_memory.md R65). -/
theorem supplyBytes_taken (hready : s.cur = none) (hmode : s.bc.mode ≠ .read) (bs : List Byte) :
    hostMove (.supplyBytes bs) s = .next { s with bc := { s.bc with byteIn := bs } } :=
  if_neg (by simp [State.byteInFixed, State.busy, hready, hmode])

theorem supplySamples_taken (hready : s.cur = none) (hblocks : s.phase ≠ .encBlocks)
    (hend : s.phase ≠ .encEnd) (xs : List Sample) :
    hostMove (.supplySamples xs) s = .next { s with pcmIn := xs } :=
  if_neg (by simp [State.pcmInFixed, State.busy, hready, hblocks, hend])

/-- A look at an output shows it while BUSY = 0 (20_memory.md R64, R68). -/
theorem take_ready (hready : s.cur = none) :
    hostMove .takeBytes s = .next { s with seen := { s.seen with bytes := s.bc.byteOut } } ∧
      hostMove .takeSamples s = .next { s with seen := { s.seen with samples := s.pcmOut } } := by
  simp [hostMove, State.hostTakeBytes, State.hostTakeSamples, State.busy, hready]

/-- A look while BUSY = 1 shows what a draw gives (20_memory.md R75). -/
theorem take_busy (hbusy : s.cur.isSome = true) :
    hostMove .takeBytes s =
        .next { s.drawn with seen := { s.seen with bytes := Config.busyBytes s.draws } } ∧
      hostMove .takeSamples s =
        .next { s.drawn with seen := { s.seen with samples := Config.busySamples s.draws } } := by
  simp [hostMove, State.hostTakeBytes, State.hostTakeSamples, State.busy, hbusy]

end Windows

/-- Settles O13: every move that is not a supply keeps both inputs, and a supply acts outside its window
only. -/
theorem inputsAreStableDuringUse : Obligations.InputsAreStableDuringUse := by
  refine ⟨fun ev s t hmode hmove => ?_, fun ev s t hphase hmove => ?_, fun ev s t hbusy hmove => ?_,
    fun s t bs hmode => ?_, fun s t xs hphase => ?_, fun s bs hready hmode => ?_,
    fun s xs hready hblocks hend => ?_, fun s => take_ready, fun s hbusy => ?_⟩
  · exact (hostMove_inputs hmove).1.resolve_right (by simp [byteInFixed_of_read hmode])
  · exact (hostMove_inputs hmove).2.resolve_right (by simp [pcmInFixed_of_encoding hphase])
  · obtain ⟨hbytes, hpcm⟩ := inputsFixed_of_busy hbusy
    exact (hostMove_inputs hmove).imp (·.resolve_right (by simp [hbytes]))
      (·.resolve_right (by simp [hpcm]))
  · rw [supplyBytes_refused (byteInFixed_of_read hmode)]
    nofun
  · rw [supplySamples_refused (pcmInFixed_of_encoding hphase)]
    nofun
  · exact supplyBytes_taken hready hmode bs
  · exact supplySamples_taken hready hblocks hend xs
  · obtain ⟨hbytes, hsamples⟩ := take_busy hbusy
    exact ⟨⟨_, hbytes⟩, ⟨_, hsamples⟩⟩

/-- Settles O21: hardware reset is the core's reset with the output streams emptied too. -/
theorem hardwareResetGivesTheResetState : Obligations.HardwareResetGivesTheResetState := by
  intro s
  calc hostMove .hardReset s
    _ = .next s.hardReset := rfl
    _ = _ := rfl

/-- Settles O23: the body of NOP is empty, so only its success is left. -/
theorem nopOnlyCompletes : Obligations.NopOnlyCompletes := by
  intro s
  calc exec .nop s
    _ = .next s.succeed := execute_ok rfl
    _ = _ := rfl

end Sys2Proof.Machine
end

section
/-!
The STATUS and BC_STATE words field by field (10_state.md R23 to R33, 20_memory.md R75), and the codes of
error entry (60_exceptions.md R306, R313).
-/

namespace Sys2Proof.Machine

open Sys2Proof.Claims

/-! ### Fields of a word -/

theorem toNat_field (v : Word) (start len : Nat) :
    (v.extractLsb' start len).toNat = v.toNat / 2 ^ start % 2 ^ len := by
  rw [BitVec.extractLsb'_toNat, Nat.shiftRight_eq_div_pow]

theorem getLsbD_eq_decide (v : Word) (i : Nat) : v.getLsbD i = decide (v.toNat / 2 ^ i % 2 = 1) := by
  rw [← BitVec.testBit_toNat, Nat.testBit_eq_decide_div_mod_eq]

theorem field_eq_zero {v : Word} {start len : Nat} (h : v.toNat / 2 ^ start % 2 ^ len = 0) :
    v.extractLsb' start len = 0 :=
  BitVec.eq_of_toNat_eq ((toNat_field v start len).trans (by simpa using h))

/-! ### STATUS -/

theorem Raise.codes_lt (e : Raise) : e.errcode < 16 ∧ e.detail < 256 := by cases e <;> decide

theorem State.codes_lt (s : State) : s.errcode < 16 ∧ s.detail < 256 := by
  simp only [State.errcode, State.detail]
  cases s.error with
  | none => decide
  | some e => exact e.codes_lt

theorem BcMode.code_lt (m : BcMode) : m.code < 4 := by cases m <;> decide

theorem Phase.code_lt (p : Phase) : p.code < 8 := by cases p <;> decide

/-- STATUS is the sum of its fields at their places (10_state.md R23 to R33). -/
theorem State.statusIdle_toNat (s : State) :
    s.statusIdle.toNat = 2 * s.done.toNat + 4 * s.error.isSome.toNat + 16 * s.errcode + 256 * s.detail
      + 65536 * s.bc.mode.code + 262144 * s.phase.code := by
  obtain ⟨herrcode, hdetail⟩ := s.codes_lt
  have hmode := s.bc.mode.code_lt
  have hphase := s.phase.code_lt
  have hdone := Bool.toNat_lt s.done
  have herr := Bool.toNat_lt s.error.isSome
  simp only [State.statusIdle, State.err, BitVec.toNat_ofNat]
  omega

/-- The pairs of 60_exceptions.md R306 are the numbers of the model. -/
theorem codes_of_errorTable :
    ∀ p ∈ errorTable, p.1.errcode = p.2.1 ∧ p.1.detail = p.2.2 := by decide

theorem code_of_modeTable : ∀ p ∈ modeTable, p.1.code = p.2 := by decide

theorem code_of_phaseTable : ∀ p ∈ phaseTable, p.1.code = p.2 := by decide

/-- Outside BCMODE and PHASE the STATUS of a running command is BUSY alone (20_memory.md R75). -/
theorem statusBusy_fixed (w : Word) : statusBusy w &&& 0xFFE0FFFF#32 = 1#32 := by
  have hfree : 0x001F0000#32 &&& 0xFFE0FFFF#32 = 0#32 := rfl
  rw [statusBusy, BitVec.and_or_distrib_right, BitVec.and_assoc, hfree, BitVec.and_zero,
    BitVec.or_zero]
  rfl

section Ready
variable (s : State)

theorem statusIdle_fields :
    s.statusIdle.extractLsb' 0 1 = 0#1 ∧ s.statusIdle.getLsbD 1 = s.done ∧
      s.statusIdle.getLsbD 2 = s.error.isSome ∧ s.statusIdle.getLsbD 3 = false ∧
      (s.statusIdle.extractLsb' 4 4).toNat = s.errcode ∧
      (s.statusIdle.extractLsb' 8 8).toNat = s.detail ∧
      (s.statusIdle.extractLsb' 16 2).toNat = s.bc.mode.code ∧
      (s.statusIdle.extractLsb' 18 3).toNat = s.phase.code ∧ s.statusIdle.extractLsb' 21 11 = 0#11 := by
  have hsum := s.statusIdle_toNat
  obtain ⟨herrcode, hdetail⟩ := s.codes_lt
  have hmode := s.bc.mode.code_lt
  have hphase := s.phase.code_lt
  have hdone := Bool.toNat_lt s.done
  have herr := Bool.toNat_lt s.error.isSome
  have hbit : ∀ x : Bool, x = decide (x.toNat = 1) := by decide
  rw [hbit s.done, hbit s.error.isSome]
  simp only [toNat_field, getLsbD_eq_decide, decide_eq_decide, decide_eq_false_iff_not]
  refine ⟨field_eq_zero ?_, ?_, ?_, ?_, ?_, ?_, ?_, ?_, field_eq_zero ?_⟩ <;> omega

end Ready

/-! ### BC_STATE -/

theorem stateWord_of_write {b : BitChannel} (hmode : b.mode = .write) :
    b.stateWord.toNat = b.wpos.val + 256 * b.wpend.toNat := by
  have hpos := b.wpos.isLt
  have hpend := b.wpend.isLt
  rw [BitChannel.stateWord, hmode]
  simp only [BitVec.toNat_ofNat]
  omega

theorem stateWord_of_read {b : BitChannel} (hmode : b.mode = .read) :
    b.stateWord.toNat = b.rdpos % 8 := by
  rw [BitChannel.stateWord, hmode]
  simp only [BitVec.toNat_ofNat]
  omega

/-- Settles O12: each field is a quotient and remainder of the sum that the word is. -/
theorem statusFieldsHaveTheirPlaces : Obligations.StatusFieldsHaveTheirPlaces := by
  refine ⟨fun s => ?_, fun s hbusy => ?_, fun s hmode => ?_, fun s hmode => ?_, fun s hmode => ?_⟩
  · obtain ⟨hbusy, hdone, herr, hthree, herrcode, hdetail, hmode, hphase, hhigh⟩ := statusIdle_fields s
    refine ⟨hbusy, hdone, herr, hthree, herrcode, hdetail, fun hnone => ?_, fun p hp hsome => ?_,
      fun p hp his => ?_, fun p hp his => ?_, hhigh⟩
    · simp [State.errcode, State.detail, hnone]
    · simpa [State.errcode, State.detail, hsome] using codes_of_errorTable p hp
    · exact hmode.trans (his ▸ code_of_modeTable p hp)
    · exact hphase.trans (his ▸ code_of_phaseTable p hp)
  · refine ⟨_, statusBusy_fixed (Config.busyWord s.draws), ?_⟩
    rw [hostMove_read_register (r := .status) rfl]
    simp [State.hostRead, State.busy, hbusy, State.readRegBusy, State.drawn]
  · have hword := stateWord_of_write hmode
    have hpos := s.bc.wpos.isLt
    have hpend := s.bc.wpend.isLt
    refine ⟨?_, field_eq_zero ?_, BitVec.eq_of_toNat_eq ?_, field_eq_zero ?_⟩ <;>
      simp only [State.readReg, toNat_field, hword] <;> omega
  · have hword := stateWord_of_read hmode
    refine ⟨?_, field_eq_zero ?_⟩ <;> simp only [State.readReg, toNat_field, hword] <;> omega
  · rcases hmode with hmode | hmode <;> simp [State.readReg, BitChannel.stateWord, hmode]

/-! ### Error entry -/

/-- The table of 60_exceptions.md R306 lists every error. -/
theorem exists_mem_errorTable (e : Raise) : ∃ p ∈ errorTable, p.1 = e := by cases e <;> decide

theorem Raise.eq_of_codes {e e' : Raise} (hclass : e.errcode = e'.errcode)
    (hdetail : e.detail = e'.detail) : e = e' := by
  obtain ⟨p, hp, rfl⟩ := exists_mem_errorTable e
  obtain ⟨q, hq, rfl⟩ := exists_mem_errorTable e'
  have hinjective : ∀ p ∈ errorTable, ∀ q ∈ errorTable,
      p.1.errcode = q.1.errcode → p.1.detail = q.1.detail → p.1 = q.1 := by decide
  exact hinjective p hp q hq hclass hdetail

/-- Settles O14: error entry is a record update, and the codes it records are those of the table. -/
theorem errorEntryWritesStatusOnly : Obligations.ErrorEntryWritesStatusOnly :=
  ⟨fun _ _ => ⟨rfl, rfl, rfl, rfl, rfl⟩, fun p hp _ => codes_of_errorTable p hp, exists_mem_errorTable,
    fun _ _ => Raise.eq_of_codes⟩

end Sys2Proof.Machine
end

section
/-!
Arithmetic of the coder, the stereo transform, the predictor and the estimator: ZigZag
(30_encoding.md R98), R196 to R199 of 42_predictor_stereo.md and R215 of 43_block_codec.md.
-/

namespace Sys2Proof.Machine

/-! ### ZigZag -/

theorem zz_of_nonneg {n : Int} (hn : 0 ≤ n) : (zz n : Int) = 2 * n := by
  rw [zz, if_pos hn]
  omega

theorem zz_of_neg {n : Int} (hn : n < 0) : (zz n : Int) = -2 * n - 1 := by
  rw [zz, if_neg (by omega)]
  omega

theorem unzz_of_even {u : Nat} (hu : u % 2 = 0) : 2 * unzz u = u := by
  rw [unzz, if_pos hu]
  omega

theorem unzz_of_odd {u : Nat} (hu : u % 2 = 1) : 2 * unzz u = -((u : Int) + 1) := by
  rw [unzz, if_neg (by omega)]
  omega

theorem zz_unzz (u : Nat) : zz (unzz u) = u := by
  rcases Nat.mod_two_eq_zero_or_one u with hu | hu
  · have hhalf := unzz_of_even hu
    have := zz_of_nonneg (n := unzz u) (by omega)
    omega
  · have hhalf := unzz_of_odd hu
    have := zz_of_neg (n := unzz u) (by omega)
    omega

theorem unzz_zz (n : Int) : unzz (zz n) = n := by
  rcases lt_or_ge n 0 with hn | hn
  · have hz := zz_of_neg hn
    have := unzz_of_odd (u := zz n) (by omega)
    omega
  · have hz := zz_of_nonneg hn
    have := unzz_of_even (u := zz n) (by omega)
    omega

theorem zz_le_of_inInt32 {n : Int} (hn : InInt32 n) : zz n ≤ 4294967295 := by
  obtain ⟨hlow, hhigh⟩ := hn
  rcases lt_or_ge n 0 with hneg | hnonneg
  · have := zz_of_neg hneg
    omega
  · have := zz_of_nonneg hnonneg
    omega

theorem inInt32_unzz {u : Nat} (hu : u ≤ 4294967295) : InInt32 (unzz u) := by
  rcases Nat.mod_two_eq_zero_or_one u with hparity | hparity
  · have := unzz_of_even hparity
    omega
  · have := unzz_of_odd hparity
    omega

/-- `n >>a 31` is all zeros or all ones, so the XOR keeps `n << 1` or complements it
(30_encoding.md R98). -/
theorem zz_eq_xor {n : Int} (hn : InInt32 n) :
    BitVec.ofNat 32 (zz n) = BitVec.ofInt 32 (n * 2) ^^^ BitVec.ofInt 32 (n / 2147483648) := by
  obtain ⟨hlow, hhigh⟩ := hn
  rw [← BitVec.ofInt_natCast]
  rcases lt_or_ge n 0 with hneg | hnonneg
  · have hsign : n / 2147483648 = -1 := by omega
    have hones : BitVec.ofInt 32 (-1) = BitVec.allOnes 32 := rfl
    have hsum : -2 * n - 1 = -(n * 2) + -1 := by omega
    rw [hsign, hones, BitVec.xor_allOnes, zz_of_neg hneg, BitVec.not_eq_neg_add, hsum, BitVec.ofInt_add,
      BitVec.ofInt_neg, BitVec.sub_eq_add_neg]
    rfl
  · have hsign : n / 2147483648 = 0 := by omega
    have hzero : BitVec.ofInt 32 0 = 0#32 := rfl
    rw [hsign, hzero, BitVec.xor_zero, zz_of_nonneg hnonneg, mul_comm]

/-- Settles O31: the map and its inverse by parity, the XOR form by the sign. -/
theorem zigZagIsTheXorFormAndABijection : Obligations.ZigZagIsTheXorFormAndABijection :=
  ⟨fun _ => zz_of_nonneg, fun _ => zz_of_neg,
    fun n hn => ⟨zz_eq_xor hn, zz_le_of_inInt32 hn, unzz_zz n⟩,
    fun u hu => ⟨inInt32_unzz hu, zz_unzz u⟩, fun _ => unzz_of_even, fun _ => unzz_of_odd⟩

/-! ### Stereo and prediction -/

theorem toLeftRight_toMidSide (l r : Int) :
    toLeftRight (toMidSide l r).1 (toMidSide l r).2 = (l, r) := by
  rw [toMidSide_eq, toLeftRight_eq, Prod.mk.injEq]
  omega

/-- Settles O39: `l + r` and `l - r` have the same parity, so the rounding is undone. -/
theorem stereoTransformIsInvertible : Obligations.StereoTransformIsInvertible := by
  refine ⟨toLeftRight_toMidSide, fun mid side => ?_⟩
  rw [toLeftRight_eq, toMidSide_eq, Prod.mk.injEq]
  omega

theorem toMidSide_bounds {l r : Int} (hl : InInt16 l) (hr : InInt16 r) :
    InInt16 (toMidSide l r).1 ∧ -65535 ≤ (toMidSide l r).2 ∧ (toMidSide l r).2 ≤ 65535 := by
  rw [toMidSide_eq]
  simp only
  omega

/-- The predictor's coefficients have absolute sum at most 7 (42_predictor_stereo.md R199). -/
theorem abs_predict_le {order : Nat} {a s1 s2 s3 : Int} (horder : order ≤ 3) (h1 : |s1| ≤ a)
    (h2 : |s2| ≤ a) (h3 : |s3| ≤ a) : |predict order s1 s2 s3| ≤ 7 * a := by
  rw [abs_le] at *
  interval_cases order <;> simp only [predict] <;> omega

theorem abs_residual_le {order : Nat} {a s s1 s2 s3 : Int} (horder : order ≤ 3) (hs : |s| ≤ a)
    (h1 : |s1| ≤ a) (h2 : |s2| ≤ a) (h3 : |s3| ≤ a) :
    |s - predict order s1 s2 s3| ≤ 8 * a := by
  calc |s - predict order s1 s2 s3| ≤ |s| + |predict order s1 s2 s3| := abs_sub _ _
    _ ≤ a + 7 * a := add_le_add hs (abs_predict_le horder h1 h2 h3)
    _ = 8 * a := by ring

/-- Settles O40: each bound is linear in the samples. -/
theorem residualsAreBounded : Obligations.ResidualsAreBounded := by
  refine ⟨fun l r hl hr => ?_, fun order a s s1 s2 s3 horder hs h1 h2 h3 =>
    ⟨abs_predict_le horder h1 h2 h3, abs_residual_le horder hs h1 h2 h3⟩,
    fun s s1 s2 s3 hs h1 h2 h3 => ?_⟩
  · obtain ⟨hmid, hside⟩ := toMidSide_bounds hl hr
    exact ⟨hmid, abs_le.mpr hside⟩
  · rw [abs_le]
    simp only [predict]
    omega

/-! ### The estimator -/

/-- Below the cap an upper bound of the estimate is an upper bound of `S` (43_block_codec.md R216). -/
theorem estimate_mono {S S' : Nat} (C : Nat) (hS : S ≤ S') : estimate S C ≤ estimate S' C := by
  obtain ⟨hpos, hcap⟩ := estimate_range S' C
  rcases C.eq_zero_or_pos with rfl | hC
  · simp
  rcases hcap.lt_or_eq with hlt | htop
  · rw [estimate_le_iff hC hpos hlt]
    calc (S : ℝ) / C ≤ S' / C := by gcongr
      _ ≤ _ := (estimate_le_iff hC hpos hlt).mp le_rfl
  · exact htop ▸ (estimate_range S C).2

/-- `T_1 = 1/(e - 1)` (43_block_codec.md R216). -/
theorem estimate_eq_one_iff {S C : Nat} (hC : 0 < C) :
    estimate S C = 1 ↔ (S : ℝ) * (Real.exp 1 - 1) ≤ C := by
  have hexp : 0 < Real.exp 1 - 1 := by
    rw [sub_pos, Real.one_lt_exp_iff]
    exact one_pos
  have hone : estimate S C = 1 ↔ estimate S C ≤ 1 :=
    ⟨le_of_eq, fun hle => le_antisymm hle (estimate_range S C).1⟩
  rw [hone, estimate_le_iff hC le_rfl (by decide), Nat.cast_one, div_one,
    div_le_div_iff₀ (by positivity) hexp, one_mul]

/-- Settles O42: the threshold form of R214 gives the growth and the case of 1. -/
theorem estimateRangeAndGrowth : Obligations.EstimateRangeAndGrowth := by
  refine ⟨estimate_range, fun S S' C hS => estimate_mono C hS, fun S C => ?_⟩
  rcases C.eq_zero_or_pos with rfl | hC
  · simp
  · rw [estimate_eq_one_iff hC, or_iff_right (by omega)]

end Sys2Proof.Machine
end

section
/-!
What a reader can do, whether it succeeds or raises: it consumes some bits that were there, BC_BYTE_COUNT
following the cursor (40_bitchannel.md R127), and it raises only the errors its rule names.
-/

namespace Sys2Proof.Machine

open Sys2Proof.Claims

variable {σ α β : Type}

/-! ### Which errors a computation raises -/

/-- Every error that `c` raises is in the list. -/
def RaisesOnly (es : List Raise) (c : EStateM Raise σ α) : Prop :=
  ∀ s e t, c s = .error e t → e ∈ es

namespace RaisesOnly

variable {es : List Raise}

theorem mono {es' : List Raise} {c : EStateM Raise σ α} (h : RaisesOnly es c) (hes : es ⊆ es') :
    RaisesOnly es' c := fun s e t hc => hes (h s e t hc)

theorem of_ok {c : EStateM Raise σ α} (h : ∀ s, ∃ a t, c s = .ok a t) : RaisesOnly es c := by
  intro s e t hc
  obtain ⟨a, u, hok⟩ := h s
  cases hok.symm.trans hc

theorem pure (a : α) : RaisesOnly es (Pure.pure a : EStateM Raise σ α) := of_ok fun _ => ⟨_, _, rfl⟩

theorem get : RaisesOnly es (MonadState.get : EStateM Raise σ σ) := of_ok fun _ => ⟨_, _, rfl⟩

theorem throw {e : Raise} (he : e ∈ es) :
    RaisesOnly es (MonadExcept.throw e : EStateM Raise σ α) := by
  intro s e' t hc
  cases hc
  exact he

theorem raiseIf {e : Raise} (he : e ∈ es) (c : Prop) [Decidable c] :
    RaisesOnly es (Machine.raiseIf c e : EStateM Raise σ Unit) := by
  intro s e' t hc
  rcases raiseIf_cases c e s with ⟨_, h⟩ | ⟨_, h⟩ <;> cases h.symm.trans hc
  exact he

theorem bind {x : EStateM Raise σ α} {f : α → EStateM Raise σ β} (hx : RaisesOnly es x)
    (hf : ∀ a, RaisesOnly es (f a)) : RaisesOnly es (x >>= f) := by
  intro s e t hc
  cases hxs : x s with
  | ok a u => exact hf a u e t ((bind_of_ok hxs).symm.trans hc)
  | error e' u =>
    cases (bind_of_error hxs).symm.trans hc
    exact hx s _ _ hxs

theorem ite {c : Prop} [Decidable c] {x y : EStateM Raise σ α} (hx : RaisesOnly es x)
    (hy : RaisesOnly es y) : RaisesOnly es (if c then x else y) := by
  split
  · exact hx
  · exact hy

/-- Inside a structure END_OF_STREAM is replaced (60_exceptions.md R309). -/
theorem structural {r : Reader α} (h : RaisesOnly es r) :
    RaisesOnly (es.map fun e => if e = .endOfStream then .unexpectedEos else e)
      (Machine.structural r) := by
  intro b e c hc
  cases hr : r b with
  | ok a d => cases (structural_ok hr).symm.trans hc
  | error e' d =>
    cases (structural_error hr).symm.trans hc
    exact List.mem_map_of_mem (h b e' _ hr)

theorem onChannel {r : Reader α} (h : RaisesOnly es r) : RaisesOnly es (Machine.onChannel r) := by
  intro s e t hc
  cases hr : r s.bc with
  | ok a b => cases (onChannel_ok hr).symm.trans hc
  | error e' b =>
    cases (onChannel_error hr).symm.trans hc
    exact h _ _ _ hr

end RaisesOnly

/-! ### How far a reader moves -/

/-- BC_BYTE_COUNT is that of the cursor (10_state.md R32). -/
def BitChannel.Synced (b : BitChannel) : Prop := b.count = BitVec.ofNat 32 (b.rdpos / 8)

theorem BitChannel.Synced.advance_zero {b : BitChannel} (h : b.Synced) : b.advance 0 = b := by
  unfold BitChannel.Synced at h
  rw [BitChannel.advance, Nat.add_zero, ← h]

theorem BitChannel.advance_synced (k : Nat) (b : BitChannel) : (b.advance k).Synced := rfl

theorem BitChannel.advance_advance (k l : Nat) (b : BitChannel) :
    (b.advance k).advance l = b.advance (k + l) := by
  simp [BitChannel.advance, Nat.add_assoc]

@[simp] theorem consumed_zero (b : BitChannel) : consumed 0 b = b := rfl

theorem consumed_pos {k : Nat} (hk : k ≠ 0) (b : BitChannel) : consumed k b = b.advance k := if_neg hk

theorem BitChannel.Synced.consumed_eq {b : BitChannel} (h : b.Synced) (k : Nat) :
    consumed k b = b.advance k := by
  rcases Nat.eq_zero_or_pos k with rfl | hk
  · exact h.advance_zero.symm
  · exact consumed_pos hk.ne' b

theorem consumed_consumed (k l : Nat) (b : BitChannel) :
    consumed l (consumed k b) = consumed (k + l) b := by
  rcases Nat.eq_zero_or_pos k with rfl | hk
  · rw [consumed_zero, Nat.zero_add]
  · rw [consumed_pos hk.ne', (b.advance_synced k).consumed_eq, BitChannel.advance_advance,
      consumed_pos (by omega)]

@[simp] theorem consumed_rdpos (k : Nat) (b : BitChannel) : (consumed k b).rdpos = b.rdpos + k := by
  rcases Nat.eq_zero_or_pos k with rfl | hk
  · rfl
  · rw [consumed_pos hk.ne', BitChannel.advance_rdpos]

@[simp] theorem consumed_byteIn (k : Nat) (b : BitChannel) : (consumed k b).byteIn = b.byteIn := by
  unfold consumed; split <;> rfl

/-- The bits still unread after some were consumed. -/
theorem unread_consumed (k : Nat) (b : BitChannel) : (consumed k b).unread = b.unread.drop k := by
  simp [BitChannel.unread]

/-- `c` is `b` with some bits consumed, all of them inside BYTE_IN (40_bitchannel.md R127, R134). -/
def Moves (b c : BitChannel) : Prop :=
  ∃ k, c = consumed k b ∧ (k ≠ 0 → b.rdpos + k ≤ 8 * b.byteIn.length)

namespace Moves

theorem refl (b : BitChannel) : Moves b b := ⟨0, rfl, fun h => absurd rfl h⟩

theorem trans (b c d : BitChannel) (h : Moves b c) (h' : Moves c d) : Moves b d := by
  obtain ⟨k, rfl, hk⟩ := h
  obtain ⟨l, rfl, hl⟩ := h'
  refine ⟨k + l, consumed_consumed k l b, fun hne => ?_⟩
  rw [consumed_rdpos, consumed_byteIn] at hl
  rcases Nat.eq_zero_or_pos l with rfl | hpos
  · exact hk hne
  · have := hl hpos.ne'
    omega

theorem synced {b c : BitChannel} (h : Moves b c) (hb : b.Synced) : c.Synced := by
  obtain ⟨k, rfl, _⟩ := h
  rw [hb.consumed_eq]
  exact b.advance_synced k

theorem frame {b c : BitChannel} (h : Moves b c) : ReaderFrame b c := by
  obtain ⟨k, rfl, _⟩ := h
  unfold consumed
  split
  · exact .refl b
  · exact ⟨rfl, rfl, rfl, rfl, rfl, rfl, Nat.le_add_right _ _⟩

/-- A successful read of `n` bits stays inside BYTE_IN (40_bitchannel.md R134). -/
theorem advance {n : Nat} {b : BitChannel} (hn : n ≤ b.remaining) (h : n ≠ 0 ∨ b.Synced) :
    Moves b (b.advance n) := by
  refine ⟨n, ?_, fun hne => ?_⟩
  · rcases h with h | h
    · exact (consumed_pos h b).symm
    · exact (h.consumed_eq n).symm
  · rw [BitChannel.remaining] at hn
    omega

end Moves

/-! ### Readers one by one -/

/-- A reader that moves the cursor only, and raises only the errors listed. -/
structure Reading (es : List Raise) (r : Reader α) : Prop where
  moves : Relates Moves r
  raises : RaisesOnly es r

namespace Reading

variable {es : List Raise}

theorem mono {es' : List Raise} {r : Reader α} (h : Reading es r) (hes : es ⊆ es') : Reading es' r :=
  ⟨h.moves, h.raises.mono hes⟩

theorem pure (a : α) : Reading es (Pure.pure a) := ⟨.pure Moves.refl a, .pure a⟩

theorem throw {e : Raise} (he : e ∈ es) : Reading es (MonadExcept.throw e : Reader α) :=
  ⟨.throw Moves.refl e, .throw he⟩

theorem raiseIf {e : Raise} (he : e ∈ es) (c : Prop) [Decidable c] :
    Reading es (Machine.raiseIf c e) := ⟨.raiseIf Moves.refl c e, .raiseIf he c⟩

theorem bind {x : Reader α} {f : α → Reader β} (hx : Reading es x) (hf : ∀ a, Reading es (f a)) :
    Reading es (x >>= f) :=
  ⟨.bind Moves.trans hx.moves fun a => (hf a).moves, .bind hx.raises fun a => (hf a).raises⟩

theorem ite {c : Prop} [Decidable c] {x y : Reader α} (hx : Reading es x) (hy : Reading es y) :
    Reading es (if c then x else y) := ⟨.ite hx.moves hy.moves, .ite hx.raises hy.raises⟩

theorem structural {r : Reader α} (h : Reading es r) :
    Reading (es.map fun e => if e = .endOfStream then .unexpectedEos else e)
      (Machine.structural r) := ⟨.structural h.moves, h.raises.structural⟩

theorem readBits_raises (n : Nat) : RaisesOnly [.endOfStream] (readBits n) := by
  intro b e c hc
  rcases readBits_cases n b with ⟨_, h⟩ | ⟨_, h⟩ <;> cases h.symm.trans hc
  exact List.mem_cons_self

/-- A read of at least one bit (40_bitchannel.md R127). -/
theorem readBits {n : Nat} (hn : n ≠ 0) (he : .endOfStream ∈ es) : Reading es (Machine.readBits n) := by
  refine ⟨fun b => ?_, (readBits_raises n).mono (by simpa using he)⟩
  rcases readBits_cases n b with ⟨_, h⟩ | ⟨henough, h⟩ <;> rw [h]
  · exact .refl b
  · exact .advance henough (.inl hn)

theorem readBit (he : .endOfStream ∈ es) : Reading es Machine.readBit :=
  .bind (.readBits one_ne_zero he) fun _ => .pure _

theorem readUnary (m : Nat) (he : .endOfStream ∈ es) (ho : .codeOverflow ∈ es) :
    ∀ fuel q, Reading es (Machine.readUnary m fuel q) := by
  intro fuel
  induction fuel with
  | zero => exact fun q => .throw he
  | succ fuel ih =>
    exact fun q => .bind (.readBit he) fun t => .ite (.pure q) <|
      .bind (.raiseIf ho _) fun _ => ih (q + 1)

end Reading

theorem readBit_ok_synced {b c : BitChannel} {x : Bool} (h : readBit b = .ok x c) : c.Synced := by
  rcases readBits_cases 1 b with ⟨_, hread⟩ | ⟨_, hread⟩
  · cases (bind_of_error hread).symm.trans h
  · cases (bind_of_ok hread).symm.trans h
    exact b.advance_synced 1

/-- The unary part is at least one bit, so that the count is the cursor's after it. -/
theorem readUnary_ok_synced {m fuel q p : Nat} {b c : BitChannel}
    (h : readUnary m fuel q b = .ok p c) : c.Synced := by
  induction fuel generalizing q b with
  | zero => cases h
  | succ fuel ih =>
    rw [readUnary] at h
    cases hbit : readBit b with
    | error e d => cases (bind_of_error hbit).symm.trans h
    | ok x d =>
      rw [bind_of_ok hbit] at h
      split at h
      · cases h
        exact readBit_ok_synced hbit
      · rcases raiseIf_cases ((q + 1) * m > Config.maxCodeValue) .codeOverflow d with ⟨_, hr⟩ | ⟨_, hr⟩
        · cases (bind_of_error hr).symm.trans h
        · exact ih ((bind_of_ok hr).symm.trans h)

/-- From a cursor that has moved, every read moves it, one of no bits too. -/
theorem readBits_moves_synced (n : Nat) :
    Relates (fun b c => b.Synced → Moves b c) (readBits n) := by
  intro b hb
  rcases readBits_cases n b with ⟨_, h⟩ | ⟨henough, h⟩ <;> rw [h]
  · exact .refl b
  · exact .advance henough (.inr hb)

theorem Moves.trans_synced (b c d : BitChannel) (h : b.Synced → Moves b c)
    (h' : c.Synced → Moves c d) (hb : b.Synced) : Moves b d :=
  .trans b c d (h hb) (h' ((h hb).synced hb))

theorem readRemainder_moves (m : Nat) :
    Relates (fun b c => b.Synced → Moves b c) (readRemainder m) :=
  .ite (.pure (fun b _ => Moves.refl b) _) <|
    .bind Moves.trans_synced (readBits_moves_synced _) fun _ =>
      .ite (.pure (fun b _ => Moves.refl b) _) <|
        .bind Moves.trans_synced (readBits_moves_synced _) fun _ => .pure (fun b _ => Moves.refl b) _

namespace Reading

variable {es : List Raise}

theorem decodeUnsigned (m : Nat) (he : .endOfStream ∈ es) (ho : .codeOverflow ∈ es) :
    Reading es (Machine.decodeUnsigned m) where
  moves b := by
    have hunary := (readUnary m he ho b.remaining 0).moves b
    have hrest : ∀ q, Relates (fun b c => b.Synced → Moves b c) (do
        let r ← readRemainder m
        Machine.raiseIf (q * m + r > Config.maxCodeValue) .codeOverflow
        return q * m + r) := fun q =>
      .bind Moves.trans_synced (readRemainder_moves m) fun r =>
        .bind Moves.trans_synced (.raiseIf (fun b _ => Moves.refl b) _ _) fun _ =>
          .pure (fun b _ => Moves.refl b) _
    rw [Machine.decodeUnsigned, bind_of_ok (get_apply b)]
    cases hq : Machine.readUnary m b.remaining 0 b with
    | error e c =>
      rw [hq] at hunary
      rw [bind_of_error hq]
      exact hunary
    | ok q c =>
      rw [hq] at hunary
      rw [bind_of_ok hq]
      exact hunary.trans _ _ _ (hrest q c (readUnary_ok_synced hq))
  raises := by
    have hbits : ∀ n, RaisesOnly es (Machine.readBits n) := fun n =>
      (readBits_raises n).mono (by simpa using he)
    refine .bind .get fun b => .bind (readUnary m he ho _ _).raises fun q => .bind ?_ fun r =>
      .bind (.raiseIf ho _) fun _ => .pure _
    exact .ite (.pure _) <| .bind (hbits _) fun _ => .ite (.pure _) <| .bind (hbits _) fun _ => .pure _

theorem decodeSigned (m : Nat) (scheme : Scheme) (he : .endOfStream ∈ es) (ho : .codeOverflow ∈ es)
    (hv : .valueRange ∈ es) : Reading es (Machine.decodeSigned m scheme) := by
  refine .bind (.decodeUnsigned m he ho) fun u => ?_
  cases scheme with
  | zigZag => exact .pure _
  | signMagnitude =>
    exact .ite (.pure _) <| .bind (.readBit he) fun _ => .bind (.raiseIf hv _) fun _ => .pure _

theorem readParam (he : .endOfStream ∈ es) (hp : .badParam ∈ es) : Reading es Machine.readParam :=
  .bind (.readBits (by decide) he) fun _ => .bind (.raiseIf hp _) fun _ => .pure _

theorem readParams (h : Header) (he : .endOfStream ∈ es) (hp : .badParam ∈ es) :
    Reading es (Machine.readParams h) :=
  .ite (.bind (.readParam he hp) fun _ => .ite (.pure _) <| .bind (.readParam he hp) fun _ => .pure _)
    (.pure _)

theorem readChannel (m : Nat) (scheme : Scheme) (order w : Nat) (lo hi : Int)
    (he : .endOfStream ∈ es) (ho : .codeOverflow ∈ es) (hv : .valueRange ∈ es)
    (hs : .sampleRange ∈ es) :
    ∀ n i prev, Reading es (Machine.readChannel m scheme order w lo hi n i prev) := by
  intro n
  induction n with
  | zero => exact fun i prev => .pure _
  | succ n ih =>
    exact fun i prev => .bind (.decodeSigned m scheme he ho hv) fun d =>
      .bind (.raiseIf hs _) fun _ => ih _ _

/-- The errors of a block's readers (43_block_codec.md R230 to R234). -/
theorem readBlock (h : Header) (len : Nat) :
    Reading [.endOfStream, .badParam, .codeOverflow, .valueRange, .sampleRange]
      (Machine.readBlock h len) := by
  refine .bind (.readParams h (by decide) (by decide)) fun m => ?_
  refine .bind (.readChannel _ _ _ _ _ _ (by decide) (by decide) (by decide) (by decide) _ _ _)
    fun x0 => .ite (.pure _) ?_
  refine .bind (.readChannel _ _ _ _ _ _ (by decide) (by decide) (by decide) (by decide) _ _ _)
    fun x1 => ?_
  exact .bind (.raiseIf (by decide) _) fun _ => .pure _

/-- A header's fields can only be cut off (44_container.md R253). -/
theorem readHeader : Reading [.endOfStream] Machine.readHeader := by
  have hfield : ∀ n, n ≠ 0 → Reading [.endOfStream] (Machine.readBits n) := fun n hn =>
    .readBits hn (by decide)
  exact .bind (hfield 32 (by decide)) fun _ => .bind (hfield 32 (by decide)) fun _ =>
    .bind (hfield 16 (by decide)) fun _ => .bind (hfield 8 (by decide)) fun _ =>
    .bind (hfield 8 (by decide)) fun _ => .bind (hfield 8 (by decide)) fun _ =>
    .bind (hfield 1 (by decide)) fun _ => .bind (.ite (hfield 32 (by decide)) (.pure _)) fun _ =>
    .pure _

theorem validateHdr (h : Header) : Reading [.badHeader, .badParam] (Machine.validateHdr h) :=
  .bind (.raiseIf (by decide) _) fun _ => .raiseIf (by decide) _

end Reading

/-! ### Commands that read -/

/-- The BitChannel has moved and nothing else has changed. -/
def MovesOnly (s t : State) : Prop := ∃ b, Moves s.bc b ∧ t = { s with bc := b }

theorem MovesOnly.refl (s : State) : MovesOnly s s := ⟨s.bc, .refl _, rfl⟩

theorem MovesOnly.trans (s t u : State) (h : MovesOnly s t) (h' : MovesOnly t u) : MovesOnly s u := by
  obtain ⟨b, hb, rfl⟩ := h
  obtain ⟨c, hc, rfl⟩ := h'
  exact ⟨c, .trans _ _ _ hb hc, rfl⟩

theorem Reading.onChannel_movesOnly {es : List Raise} {r : Reader α} (h : Reading es r) :
    Relates MovesOnly (onChannel r) := .onChannel h.moves fun _ b hb => ⟨b, hb, rfl⟩

/-- However `c` raises, only the BitChannel has moved (60_exceptions.md R315). -/
def RaisesMoved (c : Cmd α) : Prop := ∀ s e t, c s = .error e t → MovesOnly s t

namespace RaisesMoved

theorem of_relates {c : Cmd α} (h : Relates MovesOnly c) : RaisesMoved c := by
  intro s e t hc
  have hs := h s
  rwa [hc] at hs

theorem bind {x : Cmd α} {f : α → Cmd β} (hx : Relates MovesOnly x) (hf : ∀ a, RaisesMoved (f a)) :
    RaisesMoved (x >>= f) := by
  intro s e t hc
  have hs := hx s
  cases hxs : x s with
  | ok a u =>
    rw [hxs] at hs
    exact .trans _ _ _ hs (hf a u e t ((bind_of_ok hxs).symm.trans hc))
  | error e' u =>
    rw [hxs] at hs
    cases (bind_of_error hxs).symm.trans hc
    exact hs

/-- A read and the write of what was read, which cannot raise (10_state.md R30). -/
theorem bind_change {x : Cmd α} (hx : RaisesMoved x) (f : α → State → State) :
    RaisesMoved (x >>= fun a => change (f a)) := by
  intro s e t hc
  cases hxs : x s with
  | ok a u => cases (bind_of_ok hxs).symm.trans hc
  | error e' u =>
    cases (bind_of_error hxs).symm.trans hc
    exact hx _ _ _ hxs

theorem guarded {body : Cmd Unit} (ps : List Phase) (ms : List BcMode) (h : RaisesMoved body) :
    RaisesMoved (do needPhase ps; needMode ms; body) :=
  .bind (.needPhase MovesOnly.refl ps) fun _ => .bind (.needMode MovesOnly.refl ms) fun _ => h

theorem needCoder_bind {body : Cmd Unit} (m : BcMode) (h : RaisesMoved body) :
    RaisesMoved (do needCoder m; body) := by
  rw [Machine.needCoder_bind]
  exact .guarded _ _ <| .bind (.get MovesOnly.refl) fun _ =>
    .bind (.raiseIf MovesOnly.refl _ _) fun _ => h

theorem readBits (n : Nat) : RaisesMoved (onChannel (Machine.readBits n)) := by
  intro s e t hc
  rcases readBits_cases n s.bc with ⟨_, h⟩ | ⟨_, h⟩
  · cases (onChannel_error h).symm.trans hc
    exact .refl s
  · cases (onChannel_ok h).symm.trans hc

theorem decodeNextBody : RaisesMoved Machine.decodeNextBody :=
  .bind (.get MovesOnly.refl) fun _ =>
    .bind_change (.of_relates (Reading.readBlock _ _).structural.onChannel_movesOnly) _

theorem headerReadBody : RaisesMoved Machine.headerReadBody :=
  .bind Reading.readHeader.structural.onChannel_movesOnly fun h =>
    .bind_change (.of_relates (Reading.validateHdr h).onChannel_movesOnly) _

end RaisesMoved

/-- The reading commands, each a body that has only moved the cursor when it raises. -/
theorem exec_raisesMoved {i : Instr} (hreads : readsStream i = true) :
    ∃ body : Cmd Unit, (∀ s, exec i s = execute body s) ∧ RaisesMoved body := by
  cases i
  case bcReadBits n =>
    exact ⟨_, fun _ => rfl, .bind (.raiseIf MovesOnly.refl _ _) fun _ =>
      .guarded _ _ (.bind_change (.readBits n) _)⟩
  case bcReadBit =>
    exact ⟨_, fun _ => rfl, .guarded _ _ (.bind_change
      (.of_relates (Reading.readBit (es := [.endOfStream]) (by decide)).onChannel_movesOnly) _)⟩
  case grDecU =>
    exact ⟨_, fun _ => rfl, .needCoder_bind _ <| .bind (.get MovesOnly.refl) fun s => .bind_change
      (.of_relates (Reading.decodeUnsigned (es := [.endOfStream, .codeOverflow]) s.coderM (by decide)
        (by decide)).onChannel_movesOnly) _⟩
  case grDecS =>
    exact ⟨_, fun _ => rfl, .needCoder_bind _ <| .bind (.get MovesOnly.refl) fun s => .bind_change
      (.of_relates (Reading.decodeSigned (es := [.endOfStream, .codeOverflow, .valueRange]) s.coderM
        s.grNeg (by decide) (by decide) (by decide)).onChannel_movesOnly) _⟩
  case blkDecodeNext => exact ⟨_, fun _ => rfl, .guarded _ _ .decodeNextBody⟩
  case hdrRead => exact ⟨_, fun _ => rfl, .guarded _ _ .headerReadBody⟩
  all_goals cases hreads

/-- A moved reader, field by field (40_bitchannel.md R127). -/
theorem consumed_eq (k : Nat) (b : BitChannel) :
    consumed k b = { b with
      rdpos := b.rdpos + k
      count := if b.rdpos + k = b.rdpos then b.count else BitVec.ofNat 32 ((b.rdpos + k) / 8) } := by
  rcases Nat.eq_zero_or_pos k with rfl | hk
  · simp
  · rw [consumed_pos hk.ne', if_neg (by omega), BitChannel.advance]

/-- Settles O46: a body that raises has run readers only, and each of them moves the cursor over bits that
were there. -/
theorem failedReadsMoveOnlyTheCursor : Obligations.FailedReadsMoveOnlyTheCursor := by
  intro i s t hreads hexec hraised
  obtain ⟨body, hbody, hmoved⟩ := exec_raisesMoved hreads
  rw [hbody] at hexec
  rw [execute_next hexec] at hraised ⊢
  rcases settle_cases (body s) with ⟨u, _, hend⟩ | ⟨e, u, hrun, hend⟩
  · rw [hend] at hraised
    cases hraised
  · obtain ⟨b, ⟨k, rfl, hk⟩, rfl⟩ := hmoved s e u hrun
    refine ⟨e, s.bc.rdpos + k, Nat.le_add_right _ _, fun hinside => ?_, ?_⟩
    · rcases Nat.eq_zero_or_pos k with rfl | hpos
      · exact hinside
      · exact hk hpos.ne'
    · rw [hend, consumed_eq]
      rfl

end Sys2Proof.Machine
end

section
/-!
The Golomb-Rice coder against the code words of 30_encoding.md R96 to R100: what the encoders write, what
the decoders read from a code word, and where they raise on bits that are none (41_golomb.md R150 to R155).
-/

namespace Sys2Proof.Machine

open Sys2Proof.Claims

/-! ### Encoding -/

theorem writeOnes_eq_putBits (q : Nat) (b : BitChannel) :
    b.writeOnes q = b.putBits (List.replicate q true) := by
  induction q generalizing b with
  | zero => rfl
  | succ q ih => exact ih (b.writeBit true)

/-- `EncodeUnsigned` writes the unsigned code word (41_golomb.md R150, 30_encoding.md R96). -/
theorem encodeUnsigned_eq_putBits (m u : Nat) (b : BitChannel) :
    b.encodeUnsigned m u = b.putBits (ucode m u) := by
  simp only [BitChannel.encodeUnsigned, ucode, remBits, putBits_append, putBits_cons,
    writeOnes_eq_putBits, writeBits_eq_putBits]
  split
  · rfl
  · split <;> rfl

/-- `EncodeSigned` writes the signed code word (41_golomb.md R152, 30_encoding.md R99, R100). -/
theorem encodeSigned_eq_putBits (m : Nat) (scheme : Scheme) (n : Int) (b : BitChannel) :
    b.encodeSigned m scheme n = b.putBits (scode m scheme n) := by
  cases scheme with
  | zigZag => exact encodeUnsigned_eq_putBits m _ b
  | signMagnitude =>
    simp only [BitChannel.encodeSigned, scode, encodeUnsigned_eq_putBits]
    split
    · rfl
    · rw [putBits_append]
      rfl

/-- The coder's guards pass (41_golomb.md R156). -/
theorem execute_needCoder_passes {m : BcMode} {body : Cmd Unit} {s : State} (hphase : s.phase = .idle)
    (hmode : s.bc.mode = m) (hm : 0 < s.grM.toInt) :
    execute (do needCoder m; body) s = execute body s :=
  (execute_needCoder hphase hmode).trans (execute_checkPasses hm.not_ge)

/-- Settles O34: past the guards the command is one change of the BitChannel, by the code word. -/
theorem encodersWriteTheCodeWord : Obligations.EncodersWriteTheCodeWord := by
  intro s hphase hmode hm
  rw [← encodeUnsigned_eq_putBits, ← encodeSigned_eq_putBits]
  exact ⟨execute_needCoder_passes hphase hmode hm, execute_needCoder_passes hphase hmode hm⟩

/-! ### Reading bits that come next -/

variable {α β : Type}

theorem unread_advance (k : Nat) (b : BitChannel) : (b.advance k).unread = b.unread.drop k := by
  simp [BitChannel.unread]

/-- Whatever follows the bits, `r` reads exactly them and returns `a`. -/
def Reads (r : Reader α) (bits : List Bool) (a : α) : Prop :=
  ∀ b : BitChannel, bits <+: b.unread → r b = .ok a (consumed bits.length b)

/-- With exactly the bits left to read, `r` raises `e` with `k` of them consumed. -/
def Fails (r : Reader α) (bits : List Bool) (e : Raise) (k : Nat) : Prop :=
  ∀ b : BitChannel, b.unread = bits → r b = .error e (consumed k b)

theorem prefix_drop_of_append_prefix {xs ys zs : List Bool} (h : xs ++ ys <+: zs) :
    ys <+: zs.drop xs.length := by
  obtain ⟨rest, rfl⟩ := h
  simp

namespace Reads

theorem pure (a : α) : Reads (Pure.pure a) [] a := fun _ _ => rfl

theorem bind {x : Reader α} {f : α → Reader β} {xs ys : List Bool} {a : α} {c : β}
    (hx : Reads x xs a) (hf : Reads (f a) ys c) : Reads (x >>= f) (xs ++ ys) c := by
  intro b hnext
  rw [bind_of_ok (hx b ((List.prefix_append xs ys).trans hnext)),
    hf _ (by rw [unread_consumed]; exact prefix_drop_of_append_prefix hnext), consumed_consumed,
    List.length_append]

/-- A read whose value is only changed. -/
theorem map {x : Reader α} {xs : List Bool} {a : α} (hx : Reads x xs a) (g : α → β) :
    Reads (x >>= fun a => Pure.pure (g a)) xs (g a) := by
  simpa using hx.bind (f := fun a => Pure.pure (g a)) (.pure (g a))

theorem raiseIf {c : Prop} [Decidable c] {e : Raise} (hc : ¬ c) : Reads (Machine.raiseIf c e) [] () :=
  fun b _ => raiseIf_neg hc e b

theorem readBits {n v : Nat} (hn : n ≠ 0) (hv : v < 2 ^ n) :
    Reads (Machine.readBits n) (binBits v n) v := by
  intro b hnext
  rw [readBits_of_prefix hv hnext, binBits_length, consumed_pos hn]

theorem readBit (x : Bool) : Reads Machine.readBit [x] x := fun _ hnext => readBit_of_prefix hnext

theorem structural {r : Reader α} {bits : List Bool} {a : α} (h : Reads r bits a) :
    Reads (Machine.structural r) bits a := fun b hnext => structural_ok (h b hnext)

/-- What follows the bits read is where the next reader fails. -/
theorem bind_fails {x : Reader α} {f : α → Reader β} {xs ys : List Bool} {a : α} {e : Raise} {k : Nat}
    (hx : Reads x xs a) (hf : Fails (f a) ys e k) : Fails (x >>= f) (xs ++ ys) e (xs.length + k) := by
  intro b hbits
  rw [bind_of_ok (hx b (hbits ▸ List.prefix_append xs ys)),
    hf _ (by rw [unread_consumed, hbits, List.drop_left]), consumed_consumed]

end Reads

namespace Fails

theorem bind {x : Reader α} {bits : List Bool} {e : Raise} {k : Nat} (hx : Fails x bits e k)
    (f : α → Reader β) : Fails (x >>= f) bits e k := fun b hbits => bind_of_error (hx b hbits)

theorem raiseIf {c : Prop} [Decidable c] (hc : c) (e : Raise) (bits : List Bool) :
    Fails (Machine.raiseIf c e) bits e 0 := fun b _ => raiseIf_pos hc e b

theorem readBits {n : Nat} {bits : List Bool} (hshort : bits.length < n) :
    Fails (Machine.readBits n) bits .endOfStream 0 := fun _ hbits =>
  readBits_of_short (hbits ▸ hshort)

theorem readBit : Fails Machine.readBit [] .endOfStream 0 := fun _ hbits => readBit_of_empty hbits

theorem structural {r : Reader α} {bits : List Bool} {e : Raise} {k : Nat} (h : Fails r bits e k) :
    Fails (Machine.structural r) bits (if e = .endOfStream then .unexpectedEos else e) k :=
  fun b hbits => structural_error (h b hbits)

end Fails

/-! ### The unary part -/

section Unary
variable {m fuel p j : Nat} {b : BitChannel}

/-- A one-bit that takes the value past 2^32 - 1 ends the unary part, any other goes on
(41_golomb.md R151). -/
theorem readUnary_one (hnext : [true] <+: b.unread) :
    readUnary m (fuel + 1) p b =
      (do raiseIf ((p + 1) * m > Config.maxCodeValue) .codeOverflow; readUnary m fuel (p + 1))
        (b.advance 1) := by
  rw [readUnary, bind_of_ok (readBit_of_prefix hnext)]
  rfl

/-- One-bits that keep the value in range are counted (41_golomb.md R151). -/
theorem readUnary_ones {q : Nat} (hq : p + j = q) (hmax : q * m ≤ Config.maxCodeValue) (hfuel : j ≤ fuel)
    (hnext : List.replicate j true <+: b.unread) :
    readUnary m fuel p b = readUnary m (fuel - j) q (consumed j b) := by
  induction j generalizing fuel p b with
  | zero =>
    subst hq
    rfl
  | succ j ih =>
    obtain ⟨fuel, rfl⟩ := Nat.exists_eq_add_of_le' (Nat.one_le_of_lt hfuel)
    have hone : [true] <+: b.unread := (List.prefix_append [true] (List.replicate j true)).trans hnext
    have hle : (p + 1) * m ≤ q * m := Nat.mul_le_mul_right m (by omega)
    have hrest : List.replicate j true <+: (consumed 1 b).unread := by
      rw [unread_consumed]
      exact prefix_drop_of_append_prefix (xs := [true]) hnext
    rw [readUnary_one hone, bind_of_ok (raiseIf_neg (hle.trans hmax).not_gt _ _), ← consumed_pos one_ne_zero,
      ih (p := p + 1) (by omega) (by omega) hrest, consumed_consumed, Nat.add_sub_add_right, Nat.add_comm 1 j]

/-- `q` one-bits and a zero-bit are the unary part of `q` (30_encoding.md R96). -/
theorem readUnary_of_prefix {q : Nat} (hfuel : q < fuel) (hmax : q * m ≤ Config.maxCodeValue)
    (hnext : List.replicate q true ++ [false] <+: b.unread) :
    readUnary m fuel 0 b = .ok q (consumed (q + 1) b) := by
  have hones := (List.prefix_append _ _).trans hnext
  have hzero : [false] <+: (consumed q b).unread := by
    rw [unread_consumed]
    simpa using prefix_drop_of_append_prefix hnext
  obtain ⟨rest, hrest⟩ := Nat.exists_eq_add_of_le' (Nat.one_le_iff_ne_zero.mpr (Nat.sub_ne_zero_of_lt hfuel))
  rw [readUnary_ones (Nat.zero_add q) hmax hfuel.le hones, hrest, readUnary,
    bind_of_ok (readBit_of_prefix hzero), ← consumed_pos one_ne_zero, consumed_consumed]
  rfl

/-- The one-bit that takes the value past 2^32 - 1 raises at once (41_golomb.md R151). -/
theorem readUnary_of_overflow {q : Nat} (hfuel : q < fuel) (hlow : q * m ≤ Config.maxCodeValue)
    (hhigh : (q + 1) * m > Config.maxCodeValue) (hnext : List.replicate (q + 1) true <+: b.unread) :
    readUnary m fuel 0 b = .error .codeOverflow (consumed (q + 1) b) := by
  rw [List.replicate_succ'] at hnext
  have hones := (List.prefix_append _ _).trans hnext
  have hone : [true] <+: (consumed q b).unread := by
    rw [unread_consumed]
    simpa using prefix_drop_of_append_prefix hnext
  obtain ⟨rest, hrest⟩ := Nat.exists_eq_add_of_le' (Nat.one_le_iff_ne_zero.mpr (Nat.sub_ne_zero_of_lt hfuel))
  rw [readUnary_ones (Nat.zero_add q) hlow hfuel.le hones, hrest, readUnary_one hone,
    bind_of_error (raiseIf_pos hhigh _ _), ← consumed_pos one_ne_zero, consumed_consumed]

/-- Data that ends inside the unary part (41_golomb.md R155). -/
theorem readUnary_of_end {q : Nat} (hfuel : q ≤ fuel) (hmax : q * m ≤ Config.maxCodeValue)
    (hbits : b.unread = List.replicate q true) :
    readUnary m fuel 0 b = .error .endOfStream (consumed q b) := by
  have hempty : (consumed q b).unread = [] := by simp [unread_consumed, hbits]
  rw [readUnary_ones (Nat.zero_add q) hmax hfuel (by rw [hbits])]
  cases fuel - q with
  | zero => rfl
  | succ rest => rw [readUnary, bind_of_error (readBit_of_empty hempty)]

end Unary

/-! ### The remainder -/

section Remainder
variable {m r : Nat} {b : BitChannel}

/-- The long remainder is a value of `b - 1` bits, at least the cutoff, and one bit more
(30_encoding.md R96). -/
theorem remBits_long (hr : r < m) (hb : codeBits m ≠ 0) (hlong : cutoff m ≤ r) :
    ∃ v x, remBits m r = binBits v (codeBits m - 1) ++ [x] ∧ cutoff m ≤ v ∧ v < 2 ^ (codeBits m - 1) ∧
      2 * v + x.toNat - cutoff m = r := by
  obtain ⟨n, hn⟩ := Nat.exists_eq_succ_of_ne_zero hb
  have hsum := cutoff_add m
  rw [hn, pow_succ] at hsum
  have hx : (decide ((r + cutoff m) % 2 = 1)).toNat = (r + cutoff m) % 2 := by
    rcases Nat.mod_two_eq_zero_or_one (r + cutoff m) with h | h <;> rw [h] <;> rfl
  have hvalue : 2 * ((r + cutoff m) / 2) + (decide ((r + cutoff m) % 2 = 1)).toNat = r + cutoff m := by
    omega
  refine ⟨(r + cutoff m) / 2, decide ((r + cutoff m) % 2 = 1), ?_, by omega, ?_, by omega⟩
  · rw [remBits, if_neg hb, if_neg hlong.not_gt, hn, Nat.succ_sub_one, ← binBits_double_add, hvalue]
  · rw [hn, Nat.succ_sub_one]
    omega

theorem remBits_short (hb : codeBits m ≠ 0) (hshort : r < cutoff m) :
    remBits m r = binBits r (codeBits m - 1) ∧ r < 2 ^ (codeBits m - 1) := by
  rw [remBits, if_neg hb, if_pos hshort]
  exact ⟨rfl, hshort.trans (cutoff_lt (Nat.one_le_iff_ne_zero.mpr hb))⟩

/-- After the unary part a read of no bits moves nothing either. -/
theorem readBits_of_synced {n v : Nat} (hb : b.Synced) (hv : v < 2 ^ n)
    (hnext : binBits v n <+: b.unread) : readBits n b = .ok v (consumed n b) := by
  rw [readBits_of_prefix hv hnext, hb.consumed_eq]

theorem readRemainder_of_prefix (hsync : b.Synced) (hr : r < m) (hnext : remBits m r <+: b.unread) :
    readRemainder m b = .ok r (consumed (remBits m r).length b) := by
  rw [readRemainder]
  by_cases hb : codeBits m = 0
  · have hone := (codeBits_le_iff m 0).mp hb.le
    have hzero : r = 0 := by omega
    simp [hb, hzero, remBits]
  rw [if_neg hb]
  rcases lt_or_ge r (cutoff m) with hshort | hlong
  · obtain ⟨hbits, hlt⟩ := remBits_short hb hshort
    rw [hbits] at hnext ⊢
    rw [bind_of_ok (readBits_of_synced hsync hlt hnext), if_pos hshort, binBits_length]
    rfl
  · obtain ⟨v, x, hbits, hcut, hlt, rfl⟩ := remBits_long hr hb hlong
    rw [hbits] at hnext ⊢
    have hlast : binBits x.toNat 1 <+: (consumed (codeBits m - 1) b).unread := by
      rw [unread_consumed]
      cases x <;> simpa [binBits] using prefix_drop_of_append_prefix hnext
    rw [bind_of_ok (readBits_of_synced hsync hlt ((List.prefix_append _ _).trans hnext)),
      if_neg hcut.not_gt, bind_of_ok (readBits_of_prefix x.toNat_lt hlast), ← consumed_pos one_ne_zero,
      consumed_consumed, List.length_append, binBits_length]
    rfl

/-- Data that ends inside the remainder: its `b - 1` bits are one read, the last bit another
(41_golomb.md R151, R155). -/
theorem readRemainder_of_cut (hsync : b.Synced) (hr : r < m) (hcut : b.unread <+: remBits m r)
    (hlt : b.unread.length < (remBits m r).length) :
    readRemainder m b =
      .error .endOfStream (consumed (if b.unread.length < codeBits m - 1 then 0 else b.unread.length) b) := by
  have hb : codeBits m ≠ 0 := by
    intro hb
    simp [remBits, hb] at hlt
  rw [readRemainder, if_neg hb]
  by_cases hfew : b.unread.length < codeBits m - 1
  · rw [bind_of_error (readBits_of_short hfew), if_pos hfew, consumed_zero]
  rcases lt_or_ge r (cutoff m) with hshort | hlong
  · rw [(remBits_short hb hshort).1, binBits_length] at hlt
    exact absurd hlt hfew
  · obtain ⟨v, x, hbits, hcutoff, hv, -⟩ := remBits_long hr hb hlong
    rw [hbits] at hcut hlt
    have hlength : b.unread.length = codeBits m - 1 := by
      rw [List.length_append, binBits_length, List.length_singleton] at hlt
      omega
    have hall : b.unread = binBits v (codeBits m - 1) := by
      rw [List.prefix_iff_eq_take.mp hcut, List.take_left' (by rw [binBits_length, hlength])]
    have hempty : (consumed (codeBits m - 1) b).unread.length < 1 := by
      rw [unread_consumed, List.length_drop]
      omega
    rw [bind_of_ok (readBits_of_synced hsync hv (by rw [hall])), if_neg hcutoff.not_gt,
      bind_of_error (readBits_of_short hempty), if_neg hfew, hlength]

end Remainder

/-! ### The unsigned code -/

section Unsigned
variable {m q : Nat} {b c : BitChannel}

/-- After a unary part only the remainder and the last check are left (41_golomb.md R151). -/
theorem decodeUnsigned_of_unary (hunary : readUnary m b.remaining 0 b = .ok q c) :
    decodeUnsigned m b = (do
      let r ← readRemainder m
      raiseIf (q * m + r > Config.maxCodeValue) .codeOverflow
      return q * m + r : Reader Nat) c := by
  rw [decodeUnsigned, bind_of_ok (get_apply b), bind_of_ok hunary]

theorem decodeUnsigned_of_unaryError {e : Raise} (hunary : readUnary m b.remaining 0 b = .error e c) :
    decodeUnsigned m b = .error e c := by
  rw [decodeUnsigned, bind_of_ok (get_apply b), bind_of_error hunary]

/-- The unary part and the remainder of a code, whatever its value. -/
theorem decodeUnsigned_of_prefix {r : Nat} (hr : r < m) (hmax : q * m ≤ Config.maxCodeValue)
    (hnext : List.replicate q true ++ false :: remBits m r <+: b.unread) :
    decodeUnsigned m b = (do
      raiseIf (q * m + r > Config.maxCodeValue) .codeOverflow
      return q * m + r : Reader Nat) (consumed (q + 1 + (remBits m r).length) b) := by
  have hsplit : List.replicate q true ++ false :: remBits m r =
      (List.replicate q true ++ [false]) ++ remBits m r := by simp
  rw [hsplit] at hnext
  have hunaryBits := (List.prefix_append _ _).trans hnext
  have hfuel : q < b.remaining := by
    have := hunaryBits.length_le
    rw [unread_length] at this
    simpa using this
  have hrest : remBits m r <+: (consumed (q + 1) b).unread := by
    rw [unread_consumed]
    simpa using prefix_drop_of_append_prefix hnext
  have hsync : (consumed (q + 1) b).Synced := b.advance_synced (q + 1)
  rw [decodeUnsigned_of_unary (readUnary_of_prefix hfuel hmax hunaryBits),
    bind_of_ok (readRemainder_of_prefix hsync hr hrest), consumed_consumed]

end Unsigned

/-- The decoder inverts the unsigned code word (41_golomb.md R151, R154). -/
theorem Reads.decodeUnsigned {m u : Nat} (hm : 1 ≤ m) (hu : u ≤ Config.maxCodeValue) :
    Reads (Machine.decodeUnsigned m) (ucode m u) u := by
  intro b hnext
  have hvalue : u / m * m + u % m = u := Nat.div_add_mod' u m
  rw [decodeUnsigned_of_prefix (Nat.mod_lt u hm) ((Nat.div_mul_le_self u m).trans hu) hnext,
    hvalue, bind_of_ok (raiseIf_neg hu.not_gt _ _)]
  simp [ucode, Nat.add_assoc, Nat.add_comm]

/-! ### The sign bit -/

/-- What SignMagnitude reads after a magnitude: nothing for 0, else the sign bit (41_golomb.md R153). -/
def readSign (u : Nat) : Reader Int :=
  if u = 0 then pure 0
  else do
    let s ← readBit
    let n : Int := if s then -(u : Int) else (u : Int)
    raiseIf (¬ InInt32 n) .valueRange
    return n

theorem decodeSigned_signMagnitude (m : Nat) :
    decodeSigned m .signMagnitude = decodeUnsigned m >>= readSign := rfl

section Sign
variable {u : Nat} {neg : Bool}

theorem readSign_reads (hu : u ≠ 0) (hn : InInt32 (if neg then -(u : Int) else u)) :
    Reads (readSign u) [neg] (if neg then -(u : Int) else u) := by
  rw [readSign, if_neg hu]
  exact (Reads.readBit neg).bind ((Reads.raiseIf (not_not.mpr hn)).bind (.pure _))

theorem readSign_fails_range (hu : u ≠ 0) (hn : ¬ InInt32 (if neg then -(u : Int) else u))
    (rest : List Bool) : Fails (readSign u) ([neg] ++ rest) .valueRange 1 := by
  rw [readSign, if_neg hu]
  refine Reads.bind_fails (k := 0) (.readBit neg) ?_
  exact (Fails.raiseIf hn _ rest).bind _

theorem readSign_fails_end (hu : u ≠ 0) : Fails (readSign u) [] .endOfStream 0 := by
  rw [readSign, if_neg hu]
  exact Fails.readBit.bind _

end Sign

/-- The decoder inverts the signed code word (41_golomb.md R153, R154). -/
theorem Reads.decodeSigned {m : Nat} {n : Int} (scheme : Scheme) (hm : 1 ≤ m) (hn : InInt32 n) :
    Reads (Machine.decodeSigned m scheme) (scode m scheme n) n := by
  cases scheme with
  | zigZag =>
    have hread := (Reads.decodeUnsigned hm (zz_le_of_inInt32 hn)).map unzz
    rwa [unzz_zz] at hread
  | signMagnitude =>
    rw [decodeSigned_signMagnitude, scode]
    by_cases hzero : n = 0
    · have hread := (Reads.decodeUnsigned hm (Nat.zero_le _)).bind (f := readSign) (.pure 0)
      rwa [if_pos hzero, hzero, ← List.append_nil (ucode m 0)]
    · have hmagnitude : n.natAbs ≤ Config.maxCodeValue := by
        simp only [Config.maxCodeValue]
        omega
      have hsigned : (if decide (n < 0) then -(n.natAbs : Int) else n.natAbs) = n := by
        simp only [decide_eq_true_eq]
        split <;> omega
      have hsign := readSign_reads (u := n.natAbs) (neg := decide (n < 0)) (by omega) (by rwa [hsigned])
      rw [hsigned] at hsign
      rw [if_neg hzero]
      exact (Reads.decodeUnsigned hm hmagnitude).bind hsign

/-! ### Codes that fail -/

section CodeFails
variable {m : Nat} {bits : List Bool}

theorem decodeUnsigned_fails_unary {q : Nat} (hlow : q * m ≤ Config.maxCodeValue)
    (hhigh : (q + 1) * m > Config.maxCodeValue) (hbits : List.replicate (q + 1) true <+: bits) :
    Fails (decodeUnsigned m) bits .codeOverflow (q + 1) := by
  rintro b rfl
  have hfuel : q < b.remaining := by
    have := hbits.length_le
    rw [unread_length] at this
    simpa using this
  exact decodeUnsigned_of_unaryError (readUnary_of_overflow hfuel hlow hhigh hbits)

theorem decodeUnsigned_fails_remainder {q r : Nat} (hr : r < m) (hlow : q * m ≤ Config.maxCodeValue)
    (hhigh : q * m + r > Config.maxCodeValue)
    (hbits : List.replicate q true ++ false :: remBits m r <+: bits) :
    Fails (decodeUnsigned m) bits .codeOverflow (q + 1 + (remBits m r).length) := by
  rintro b rfl
  rw [decodeUnsigned_of_prefix hr hlow hbits, bind_of_error (raiseIf_pos hhigh _ _)]

/-- Data that ends inside a code (41_golomb.md R155). -/
theorem decodeUnsigned_fails_end {u : Nat} (hm : 1 ≤ m) (hu : u ≤ Config.maxCodeValue)
    (hbits : bits <+: ucode m u) (hlt : bits.length < (ucode m u).length) :
    Fails (decodeUnsigned m) bits .endOfStream (codeCut m u bits.length) := by
  have hmax : u / m * m ≤ Config.maxCodeValue := (Nat.div_mul_le_self u m).trans hu
  rintro b rfl
  rcases Nat.lt_or_ge (u / m) b.unread.length with hunary | hunary
  · obtain ⟨rest, hrest⟩ : ∃ rest, b.unread = (List.replicate (u / m) true ++ [false]) ++ rest := by
      have hsplit : ucode m u = (List.replicate (u / m) true ++ [false]) ++ remBits m (u % m) := by
        simp [ucode]
      rw [hsplit] at hbits
      obtain ⟨rest, hrest⟩ := List.prefix_of_prefix_length_le (List.prefix_append _ _) hbits
        (by simpa using hunary)
      exact ⟨rest, hrest.symm⟩
    have hfuel : u / m < b.remaining := unread_length b ▸ hunary
    have hrestCut : (consumed (u / m + 1) b).unread = rest := by
      rw [unread_consumed, hrest, List.drop_left' (by simp)]
    have hprefix : rest <+: remBits m (u % m) := by
      rw [hrest, ucode] at hbits
      simpa using hbits
    have hshort : rest.length < (remBits m (u % m)).length := by
      rw [hrest, ucode] at hlt
      simp at hlt
      omega
    have hsync : (consumed (u / m + 1) b).Synced := b.advance_synced (u / m + 1)
    have hcut := readRemainder_of_cut hsync (Nat.mod_lt u hm) (hrestCut ▸ hprefix) (hrestCut ▸ hshort)
    have hlength : b.unread.length = u / m + 1 + rest.length := by
      simp only [hrest, List.length_append, List.length_replicate, List.length_singleton]
    have hconsumed : u / m + 1 + (if rest.length < codeBits m - 1 then 0 else rest.length) =
        codeCut m u b.unread.length := by
      have hpast : ¬ u / m + 1 + rest.length ≤ u / m := by omega
      rw [codeCut, hlength, if_neg hpast]
      split <;> split <;> omega
    rw [decodeUnsigned_of_unary (readUnary_of_prefix hfuel hmax ⟨rest, hrest.symm⟩), bind_of_error hcut,
      consumed_consumed, hrestCut, hconsumed]
  · have hones : b.unread = List.replicate b.unread.length true := by
      have hprefix : b.unread <+: List.replicate (u / m) true :=
        List.prefix_of_prefix_length_le hbits (List.prefix_append _ _) (by simpa using hunary)
      exact List.eq_replicate_of_mem fun x hx => (List.mem_replicate.mp (hprefix.subset hx)).2
    have hle : b.unread.length * m ≤ u / m * m := Nat.mul_le_mul_right m hunary
    rw [decodeUnsigned_of_unaryError
      (readUnary_of_end (unread_length b).le (hle.trans hmax) hones), codeCut, if_pos hunary]

/-- The failing codes of GR_DEC_U (41_golomb.md R151, R155). -/
theorem decodeUnsigned_fails {e : Raise} {k : Nat} (hm : 1 ≤ m) (hfails : CodeFails m none bits e k) :
    Fails (decodeUnsigned m) bits e k := by
  rcases hfails with ⟨rfl, hk, hlow, hhigh, hbits⟩ | ⟨rfl, q, r, hr, hlow, hhigh, hbits, rfl⟩ |
    ⟨-, hscheme, -⟩ | ⟨rfl, u, hu, hbits, hlt, rfl⟩ | ⟨-, hscheme, -⟩
  · obtain ⟨q, rfl⟩ := Nat.exists_eq_add_of_le' hk
    exact decodeUnsigned_fails_unary hlow hhigh hbits
  · exact decodeUnsigned_fails_remainder hr hlow hhigh hbits
  · cases hscheme
  · exact decodeUnsigned_fails_end hm hu hbits hlt
  · cases hscheme

/-- The failing codes of GR_DEC_S: those of its unsigned code, a value outside INT32, and a sign bit that
is missing (41_golomb.md R153, R155). -/
theorem decodeSigned_fails {scheme : Scheme} {e : Raise} {k : Nat} (hm : 1 ≤ m)
    (hfails : CodeFails m (some scheme) bits e k) : Fails (decodeSigned m scheme) bits e k := by
  have hunsigned : CodeFails m none bits e k → Fails (decodeSigned m scheme) bits e k :=
    fun h => (decodeUnsigned_fails hm h).bind _
  rcases hfails with h | h | ⟨rfl, hscheme, u, neg, hu, hrange, ⟨rest, rfl⟩, rfl⟩ | h |
    ⟨rfl, hscheme, u, hpos, hu, rfl, rfl⟩
  · exact hunsigned (.inl h)
  · exact hunsigned (.inr (.inl h))
  · cases hscheme
    have hout : ¬ InInt32 (if neg then -(u : Int) else u) := by
      cases neg <;> simp only [InInt32, Bool.false_eq_true, if_true, if_false] at hrange ⊢ <;> omega
    have hzero : u ≠ 0 := by
      rintro rfl
      cases neg <;> simp at hrange
    rw [decodeSigned_signMagnitude, List.append_assoc]
    exact (Reads.decodeUnsigned hm hu).bind_fails (readSign_fails_range hzero hout rest)
  · exact hunsigned (.inr (.inr (.inr (.inl h))))
  · cases hscheme
    have hfail := (Reads.decodeUnsigned hm hu).bind_fails (readSign_fails_end (Nat.one_le_iff_ne_zero.mp hpos))
    rwa [List.append_nil, Nat.add_zero] at hfail

end CodeFails

/-! ### The decoding commands -/

section Commands
variable {s : State}

theorem one_le_coderM (hm : 0 < s.grM.toInt) : 1 ≤ s.grM.toNat := by
  rw [BitVec.toInt_eq_toNat_cond] at hm
  omega

theorem exec_grDecU (hphase : s.phase = .idle) (hmode : s.bc.mode = .read) (hm : 0 < s.grM.toInt) :
    exec .grDecU s = execute (do
      let u ← onChannel (decodeUnsigned s.grM.toNat)
      change fun s => { s with res0 := u32 u }) s :=
  (execute_needCoder_passes hphase hmode hm).trans (execute_bind_ok (get_apply s))

theorem exec_grDecS (hphase : s.phase = .idle) (hmode : s.bc.mode = .read) (hm : 0 < s.grM.toInt) :
    exec .grDecS s = execute (do
      let n ← onChannel (decodeSigned s.grM.toNat s.grNeg)
      change fun s => { s with res0 := u32 n }) s :=
  (execute_needCoder_passes hphase hmode hm).trans (execute_bind_ok (get_apply s))

/-- A reader that fails at the reader's position ends the command there. -/
theorem execute_onChannel_fails {r : Reader α} {e : Raise} {k : Nat} (f : α → Cmd Unit)
    (hfails : Fails r s.bc.unread e k) :
    execute (do let a ← onChannel r; f a) s = .next (failAt k e s) :=
  execute_bind_error (onChannel_error (hfails s.bc rfl))

end Commands

theorem ucode_ne_nil (m u : Nat) : (ucode m u).length ≠ 0 := by simp [ucode]

theorem scode_ne_nil (m : Nat) (scheme : Scheme) (n : Int) : (scode m scheme n).length ≠ 0 := by
  cases scheme with
  | zigZag => exact ucode_ne_nil m _
  | signMagnitude =>
    rw [scode]
    split
    · exact ucode_ne_nil m 0
    · simp

/-- Settles O35: past the guards the command is a read of the code word, which is not empty, and the write
of its value. -/
theorem decodersInvertTheCodeWord : Obligations.DecodersInvertTheCodeWord := by
  refine ⟨fun s u hphase hmode hm hu hnext => ?_, fun s n hphase hmode hm hn hnext => ?_⟩
  · rw [exec_grDecU hphase hmode hm,
      execute_read_ok (Reads.decodeUnsigned (one_le_coderM hm) hu s.bc hnext),
      consumed_pos (ucode_ne_nil _ _), u32, BitVec.ofInt_natCast]
  · rw [exec_grDecS hphase hmode hm,
      execute_read_ok (Reads.decodeSigned s.grNeg (one_le_coderM hm) hn s.bc hnext),
      consumed_pos (scode_ne_nil _ _ _), u32]

/-- Settles O36: past the guards the command is a read, which fails where the code does; the unary part
past 2^32 - 1 is such a code. -/
theorem unaryOverflowRaisesAtOnce : Obligations.UnaryOverflowRaisesAtOnce := by
  have hfail : ∀ (s : State) (e : Raise) (k : Nat), s.phase = .idle → s.bc.mode = .read →
      0 < s.grM.toInt →
      (CodeFails s.grM.toNat none s.bc.unread e k → exec .grDecU s = .next (failAt k e s)) ∧
      (CodeFails s.grM.toNat (some s.grNeg) s.bc.unread e k →
        exec .grDecS s = .next (failAt k e s)) := by
    intro s e k hphase hmode hm
    rw [exec_grDecU hphase hmode hm, exec_grDecS hphase hmode hm]
    exact ⟨fun h => execute_onChannel_fails _ (decodeUnsigned_fails (one_le_coderM hm) h),
      fun h => execute_onChannel_fails _ (decodeSigned_fails (one_le_coderM hm) h)⟩
  refine ⟨fun s q hphase hmode hm hq hlow hhigh hbits => ?_, hfail⟩
  have hcode : ∀ scheme, CodeFails s.grM.toNat scheme s.bc.unread .codeOverflow q := fun _ =>
    .inl ⟨rfl, hq, hlow, hhigh, hbits⟩
  have hconsumed : failAt q .codeOverflow s = { s with bc := s.bc.advance q }.raiseError .codeOverflow := by
    rw [failAt, consumed_pos (by omega)]
  obtain ⟨hunsigned, hsigned⟩ := hfail s .codeOverflow q hphase hmode hm
  rw [← hconsumed]
  simp only [List.forall_mem_cons]
  exact ⟨hunsigned (hcode _), hsigned (hcode _), nofun⟩

end Sys2Proof.Machine
end

section
/-!
The header (30_encoding.md R89): what HDR_WRITE writes, what HDR_READ reads from it, and where HDR_READ
raises (44_container.md R250 to R255).
-/

namespace Sys2Proof.Machine

open Sys2Proof.Claims

/-! ### Writing a header -/

theorem binBits_dynamic (d : BitVec 1) : binBits d.toNat 1 = [d == 1] := by decide +revert

/-- `WriteHeader` writes the header of the grammar (44_container.md R251, 30_encoding.md R89). -/
theorem writeHeader_eq_putBits (h : Header) (b : BitChannel) : b.writeHeader h = b.putBits h.bits := by
  simp only [BitChannel.writeHeader, Header.bits, putBits_append, writeBits_eq_putBits, binBits_dynamic]
  by_cases hd : h.dynamic = 0
  · rw [if_pos hd, if_pos hd]
  · rw [if_neg hd, if_neg hd, putBits_nil]

/-- With a configuration that passes every check `ValidateCfg()` passes (44_container.md R250). -/
theorem validateCfg_ok {s : State} (hok : ConfigOk s) : validateCfg s = .ok () s := by
  obtain ⟨⟨hsize, hchannels, horder, hneg, hm⟩, hlength⟩ := hok
  rw [validateCfg, bind_of_ok (get_apply s), bind_of_ok (raiseIf_neg hsize _ s),
    bind_of_ok (raiseIf_neg (channels_pass hchannels) _ s),
    bind_of_ok (raiseIf_neg (order_passes horder) _ s), bind_of_ok (raiseIf_neg hneg.not_gt _ s),
    bind_of_ok (raiseIf_neg (staticM_passes hm) _ s)]
  exact raiseIf_neg (not_not.mpr hlength) _ s

/-- The state in which the header has been written (44_container.md R252). -/
theorem headerWriteBody_ok {s : State} (hok : ConfigOk s) :
    headerWriteBody s = .ok () { s.startRun s.cfg .encBlocks .encEnd with bc := s.bc.putBits s.cfg.bits } := by
  rw [headerWriteBody, bind_of_ok (validateCfg_ok hok), ← writeHeader_eq_putBits]
  rfl

theorem headerBits_length_dynamic (h : Header) : h.bits.length = if h.dynamic = 1 then 105 else 137 := by
  rw [headerBits_length]
  rcases BitVec.eq_zero_or_eq_one h.dynamic with hd | hd <;> simp [hd]

theorem headerBits_length_ne_zero (h : Header) : h.bits.length ≠ 0 := by
  rw [headerBits_length]
  split <;> decide

/-- Settles O48: past the guards and the checks the command is one change of the state. -/
theorem hdrWriteStartsTheRun : Obligations.HdrWriteStartsTheRun := by
  refine ⟨fun s hphase hmode hok => ?_, headerBits_length_dynamic⟩
  have hexec : exec .hdrWrite s = execute headerWriteBody s :=
    execute_guarded (by simpa using hphase) (by simpa using hmode)
  rw [hexec, execute_ok (headerWriteBody_ok hok)]
  simp only [State.startRun, State.succeed]

/-! ### Reading a header -/

/-- The static divisor is read when the dynamic flag is 0 (44_container.md R253). -/
theorem Reads.readStaticM (h : Header) :
    Reads (Machine.readStaticM h.dynamic.toNat) (if h.dynamic = 0 then binBits h.staticM.toNat 32 else [])
      (decodedForm h).staticM.toNat := by
  rcases BitVec.eq_zero_or_eq_one h.dynamic with hd | hd <;> simp only [decodedForm, hd]
  · exact Reads.readBits (by decide) h.staticM.isLt
  · exact .pure 0

/-- `ReadHeader` reads the header of the grammar (44_container.md R253). -/
theorem Reads.readHeader (h : Header) : Reads Machine.readHeader h.bits (decodedForm h) := by
  have hfield : ∀ {n : Nat} (x : BitVec n), n ≠ 0 → Reads (Machine.readBits n) (binBits x.toNat n) x.toNat :=
    fun x hn => Reads.readBits hn x.isLt
  have hform : decodedForm h = { h with staticM := (decodedForm h).staticM } := by
    unfold decodedForm
    split <;> rfl
  have hbits : h.bits = binBits h.sampleRate.toNat 32 ++ (binBits h.totalFrames.toNat 32 ++
      (binBits h.blockSize.toNat 16 ++ (binBits h.channels.toNat 8 ++ (binBits h.order.toNat 8 ++
      (binBits h.neg.toNat 8 ++ (binBits h.dynamic.toNat 1 ++
      (if h.dynamic = 0 then binBits h.staticM.toNat 32 else []))))))) := by
    simp only [Header.bits, binBits_dynamic, List.append_assoc]
  rw [hbits, Machine.readHeader]
  refine (hfield h.sampleRate (by decide)).bind ((hfield h.totalFrames (by decide)).bind ?_)
  refine (hfield h.blockSize (by decide)).bind ((hfield h.channels (by decide)).bind ?_)
  refine (hfield h.order (by decide)).bind ((hfield h.neg (by decide)).bind ?_)
  refine (hfield h.dynamic (by decide)).bind ?_
  have hread := (Reads.readStaticM h).map fun sm => ({ h with staticM := BitVec.ofNat 32 sm } : Header)
  simp only [BitVec.ofNat_toNat, BitVec.setWidth_eq] at hread ⊢
  rwa [← hform] at hread

/-! ### Headers that are cut off -/

/-- Some value is written by the bits that come next. -/
theorem exists_binBits_of_length_le {n : Nat} {b : BitChannel} (hn : n ≤ b.unread.length) :
    ∃ v, v < 2 ^ n ∧ b.unread = binBits v n ++ b.unread.drop n := by
  refine ⟨b.sourceBits b.rdpos n, sourceBits_lt _ _ _, ?_⟩
  rcases Nat.eq_zero_or_pos n with rfl | hpos
  · rfl
  · have hinside : b.rdpos + n ≤ 8 * b.byteIn.length := by
      rw [unread_length, BitChannel.remaining] at hn
      omega
    rw [binBits_sourceBits b hinside]
    exact (List.take_append_drop n b.unread).symm

/-- A header whose bits from `d` on end in the next field or after it (40_bitchannel.md R127,
44_container.md R253). -/
theorem Fails.field {α : Type} {d n k : Nat} {bits : List Bool} {f : Nat → Reader α} (hn : n ≠ 0)
    (hrest : ∀ v, v < 2 ^ n → bits.drop d = binBits v n ++ bits.drop (d + n) → d + n ≤ bits.length →
      Fails (f v) (bits.drop (d + n)) .endOfStream k) :
    Fails (Machine.readBits n >>= f) (bits.drop d) .endOfStream
      (if bits.length < d + n then 0 else n + k) := by
  intro b hb
  have hlength : b.unread.length = bits.length - d := by rw [hb, List.length_drop]
  split
  next hshort => exact (Fails.readBits (by omega)).bind f b rfl
  next henough =>
    obtain ⟨v, hv, hbits⟩ := exists_binBits_of_length_le (n := n) (b := b) (by omega)
    rw [hb, List.drop_drop] at hbits
    have hfail := (Reads.readBits hn hv).bind_fails (hrest v hv hbits (Nat.le_of_not_lt henough))
    rw [← hbits, binBits_length] at hfail
    exact hfail b hb

/-- A header that the data ends in is read up to the field that is not there (44_container.md R253). -/
theorem readHeader_fails {bits : List Bool}
    (hcut : bits.length < 105 ∨ bits.length < 137 ∧ bits.getD 104 true = false) :
    Fails Machine.readHeader bits .endOfStream (headerCut bits.length) := by
  have hstatic : ∀ v, v < 2 → bits.drop 104 = binBits v 1 ++ bits.drop 105 → 105 ≤ bits.length →
      v = 0 ∧ (bits.drop 105).length < 32 := by
    intro v hv hbits hlength
    obtain ⟨hlt, hflag⟩ := hcut.resolve_left (Nat.not_lt.mpr hlength)
    have hhead : bits.getD 104 true = v.testBit 0 := by
      have := congrArg (·.getD 0 true) hbits
      simpa [binBits, List.getD_eq_getElem?_getD] using this
    rw [hhead, Nat.testBit_zero, decide_eq_false_iff_not] at hflag
    rw [List.length_drop]
    omega
  have hcount : headerCut bits.length =
      if bits.length < 32 then 0 else 32 + if bits.length < 64 then 0 else 32 +
        if bits.length < 80 then 0 else 16 + if bits.length < 88 then 0 else 8 +
        if bits.length < 96 then 0 else 8 + if bits.length < 104 then 0 else 8 +
        if bits.length < 105 then 0 else 1 + 0 := by
    simp only [headerCut]
    split_ifs <;> omega
  rw [hcount, Machine.readHeader]
  refine Fails.field (d := 0) (by decide) fun _ _ _ _ => ?_
  refine Fails.field (by decide) fun _ _ _ _ => Fails.field (by decide) fun _ _ _ _ => ?_
  refine Fails.field (by decide) fun _ _ _ _ => Fails.field (by decide) fun _ _ _ _ => ?_
  refine Fails.field (by decide) fun _ _ _ _ => Fails.field (by decide) fun dy hdy hbits hlength => ?_
  obtain ⟨rfl, hshort⟩ := hstatic dy hdy hbits hlength
  exact (Fails.readBits hshort).bind _

/-! ### HDR_READ -/

section HdrRead
variable {s : State} {h : Header}

theorem exec_hdrRead (hphase : s.phase = .idle) (hmode : s.bc.mode = .read) :
    exec .hdrRead s = execute headerReadBody s :=
  execute_guarded (by simpa using hphase) (by simpa using hmode)

/-- Past the fields only the checks and the latch are left (44_container.md R255). -/
theorem headerReadBody_of_prefix (hbits : h.bits <+: s.bc.unread) :
    headerReadBody s = (do
      onChannel (validateHdr (decodedForm h))
      change fun s => { s.startRun (decodedForm h) .decBlocks .decEnd with
        cfg := decodedForm h, pcmOut := [] }) { s with bc := s.bc.advance h.bits.length } := by
  rw [headerReadBody, bind_of_ok (onChannel_ok ((Reads.readHeader h).structural s.bc hbits)),
    consumed_pos (headerBits_length_ne_zero h)]

theorem decodedForm_totalFrames (h : Header) : (decodedForm h).totalFrames = h.totalFrames := by
  unfold decodedForm
  split <;> rfl

/-- The decoder's header differs in `staticM` only, and not where it is checked (44_container.md R253). -/
theorem decodedForm_of_static (hstatic : h.dynamic = 0) : decodedForm h = h :=
  if_neg (by simp [hstatic])

theorem decodedForm_checks (h : Header) :
    (decodedForm h).blockSize = h.blockSize ∧ (decodedForm h).channels = h.channels ∧
      (decodedForm h).order = h.order ∧ (decodedForm h).neg = h.neg ∧
      (decodedForm h).dynamic = h.dynamic := by
  unfold decodedForm
  split <;> exact ⟨rfl, rfl, rfl, rfl, rfl⟩

theorem decodedForm_legal (hlegal : h.Legal) : (decodedForm h).Legal := by
  obtain ⟨hsize, hchannels, horder, hneg, hdynamic⟩ := decodedForm_checks h
  obtain ⟨hsize', hchannels', horder', hneg', hm⟩ := hlegal
  refine ⟨hsize ▸ hsize', hchannels ▸ hchannels', horder ▸ horder', hneg ▸ hneg', fun hstatic => ?_⟩
  rw [hdynamic] at hstatic
  rw [decodedForm_of_static hstatic]
  exact hm hstatic

/-- The first check of `ValidateHdr()` (44_container.md R254). -/
theorem fields_pass (hsize : h.blockSize ≠ 0) (hchannels : h.channels = 1 ∨ h.channels = 2)
    (horder : h.order.toNat ≤ 3) (hneg : h.neg.toNat ≤ 1) :
    ¬ (h.blockSize = 0 ∨ (h.channels ≠ 1 ∧ h.channels ≠ 2) ∨ h.order.toNat > Config.maxOrder
      ∨ h.neg.toNat > 1) := by
  rintro (hbad | hbad | hbad | hbad)
  · exact hsize hbad
  · exact channels_pass hchannels hbad
  · exact order_passes horder hbad
  · exact hneg.not_gt hbad

theorem validateHdr_ok (hlegal : h.Legal) (b : BitChannel) : validateHdr h b = .ok () b := by
  obtain ⟨hsize, hchannels, horder, hneg, hm⟩ := hlegal
  rw [validateHdr, bind_of_ok (raiseIf_neg (fields_pass hsize hchannels horder hneg) _ b)]
  exact raiseIf_neg (staticM_passes hm) _ b

/-- The state after a legal header (44_container.md R255). -/
theorem headerReadBody_ok (hlegal : h.Legal) (hbits : h.bits <+: s.bc.unread) :
    headerReadBody s = .ok () { s.startRun (decodedForm h) .decBlocks .decEnd with
      cfg := decodedForm h, pcmOut := [], bc := s.bc.advance h.bits.length } := by
  rw [headerReadBody_of_prefix hbits,
    bind_of_ok (onChannel_ok (validateHdr_ok (decodedForm_legal hlegal) _))]
  rfl

/-- A header that does not pass a check (44_container.md R254). -/
theorem exec_hdrRead_invalid {e : Raise} (hphase : s.phase = .idle) (hmode : s.bc.mode = .read)
    (hbits : h.bits <+: s.bc.unread)
    (hinvalid : ∀ b, validateHdr (decodedForm h) b = .error e b) :
    exec .hdrRead s = .next (failAt h.bits.length e s) := by
  rw [exec_hdrRead hphase hmode, execute, headerReadBody_of_prefix hbits,
    bind_of_error (onChannel_error (hinvalid _)), failAt, consumed_pos (headerBits_length_ne_zero h)]
  rfl

end HdrRead

/-- Settles O49: the fields are read in order, up to the one that is cut off, and a whole header passes
or fails its two checks. -/
theorem hdrReadStartsTheRun : Obligations.HdrReadStartsTheRun := by
  refine ⟨fun s h hphase hmode hlegal hbits => ?_, fun s h hphase hmode hbits => ⟨fun hbad => ?_,
    fun hsize hchannels horder hneg hstatic hm => ?_⟩, fun s hphase hmode hcut => ?_⟩
  · rw [exec_hdrRead hphase hmode, execute_ok (headerReadBody_ok hlegal hbits)]
    simp only [State.startRun, State.succeed, decodedForm_totalFrames]
  · refine exec_hdrRead_invalid hphase hmode hbits fun b => ?_
    obtain ⟨hsize, hchannels, horder, hneg, -⟩ := decodedForm_checks h
    rw [validateHdr, hsize, hchannels, horder, hneg]
    exact bind_of_error (raiseIf_pos hbad _ b)
  · refine exec_hdrRead_invalid hphase hmode hbits fun b => ?_
    rw [decodedForm_of_static hstatic, validateHdr,
      bind_of_ok (raiseIf_neg (fields_pass hsize hchannels horder hneg) _ b)]
    exact raiseIf_pos ⟨hstatic, hm⟩ _ b
  · rw [exec_hdrRead hphase hmode]
    exact execute_onChannel_fails _ (readHeader_fails hcut).structural

end Sys2Proof.Machine
end

section
/-!
Blocks (30_encoding.md R91, R92): what BLK_ENCODE_NEXT writes, what the block's readers read from it, and
where they raise (43_block_codec.md R210 to R219, R230 to R238).
-/

namespace Sys2Proof.Machine

open Sys2Proof.Claims

/-! ### Encoding a block -/

theorem encodeAll_eq_putBits (m : Nat) (scheme : Scheme) (vs : List Int) (b : BitChannel) :
    b.encodeAll m scheme vs = b.putBits (vs.flatMap (scode m scheme)) := by
  induction vs generalizing b with
  | nil => rfl
  | cons v vs ih =>
    rw [List.flatMap_cons, putBits_append, ← encodeSigned_eq_putBits]
    exact ih _

/-- `EncodeBlock` writes the block of the grammar with the divisors it chooses (43_block_codec.md R217,
R218). -/
theorem encodeBlock_eq_putBits (h : Header) (x0 x1 : List Int) (b : BitChannel)
    (hside : h.stereo = true → x1.length = x0.length) :
    b.encodeBlock h x0 x1 = b.putBits (h.blockBits (h.encodeDivisor (h.warmup x0.length) x0)
      (h.encodeDivisor (h.warmup x0.length) x1) x0 x1) := by
  simp only [BitChannel.encodeBlock, Header.blockBits, Header.channelBits, putBits_append,
    writeBits_eq_putBits, encodeAll_eq_putBits]
  cases hstereo : h.stereo with
  | true =>
    rw [hside hstereo]
    by_cases hd : h.dynamic = 1 <;>
      simp only [hd, and_true, if_true, if_false, putBits_append, putBits_nil]
  | false =>
    by_cases hd : h.dynamic = 1 <;>
      simp only [hd, Bool.false_eq_true, and_false, if_true, if_false, List.append_nil, putBits_nil]

/-- The bits of the next block are those of the grammar (43_block_codec.md R218). -/
theorem State.encodeBlock_bc (s : State) :
    s.encodeBlock.bc = s.bc.putBits (s.hdr.encodedBlockBits s.pcmIn s.framesDone) := by
  simp only [State.encodeBlock]
  rw [encodeBlock_eq_putBits _ _ _ _ fun hstereo => by
    rw [channelSamples_length0, channelSamples_length1, if_pos hstereo]]
  rw [channelSamples_length0]
  rfl

theorem State.endRun_eq (p : Phase) (s : State) :
    s.endRun p = { s with phase := if s.framesDone = s.hdr.totalFrames.toNat then p else s.phase } := by
  unfold State.endRun
  split <;> rfl

/-- The state after a block has been encoded (43_block_codec.md R218, R219). -/
theorem encodeNextBody_eq (s : State) :
    encodeNextBody s = .ok () { s with
      bc := s.bc.putBits (s.hdr.encodedBlockBits s.pcmIn s.framesDone)
      hist0 := s.hist0 ++
        (s.hdr.channelSamples s.pcmIn s.framesDone (s.hdr.blockLen s.framesDone)).1
      hist1 := s.hist1 ++
        (s.hdr.channelSamples s.pcmIn s.framesDone (s.hdr.blockLen s.framesDone)).2
      framesDone := s.framesDone + s.hdr.blockLen s.framesDone
      phase := if s.framesDone + s.hdr.blockLen s.framesDone = s.hdr.totalFrames.toNat then .encEnd
        else s.phase } := by
  rw [← s.encodeBlock_bc, encodeNextBody, change_apply, State.endRun_eq]
  rfl

/-- Settles O44: past the guards the command is one block and the end of the run. -/
theorem blkEncodeNextWritesTheBlock : Obligations.BlkEncodeNextWritesTheBlock := by
  intro s hphase hmode
  have hexec : exec .blkEncodeNext s = execute encodeNextBody s :=
    execute_guarded (by simpa using hphase) (by simpa using hmode)
  rw [hexec, execute_ok (encodeNextBody_eq s), hphase]
  simp only [State.succeed]

/-! ### Parameter fields -/

/-- A legal divisor is positive as a register (43_block_codec.md R230). -/
theorem int32_ofNat {m : Nat} (hm : m ≤ 2147483647) : int32 (BitVec.ofNat 32 m) = m := by
  rw [int32, BitVec.toInt_eq_toNat_of_lt] <;> simp only [BitVec.toNat_ofNat] <;> omega

theorem Reads.readParam {m : Nat} (hpos : 1 ≤ m) (hm : m ≤ 2147483647) :
    Reads Machine.readParam (binBits m 32) m := by
  have hgood : ¬ int32 (BitVec.ofNat 32 m) ≤ 0 := by
    rw [int32_ofNat hm]
    omega
  have hread : Reads Machine.readParam (binBits m 32 ++ ([] ++ [])) m :=
    (Reads.readBits (by decide) (by omega)).bind ((Reads.raiseIf hgood).bind (.pure m))
  rwa [List.append_nil, List.append_nil] at hread

/-- A parameter that is not positive raises right after it is read (43_block_codec.md R230). -/
theorem Fails.readParam_bad {v : Word} (hv : v.toInt ≤ 0) (rest : List Bool) :
    Fails Machine.readParam (binBits v.toNat 32 ++ rest) .badParam 32 := by
  have hbad : int32 (BitVec.ofNat 32 v.toNat) ≤ 0 := by simpa [int32] using hv
  have hfail : Fails Machine.readParam (binBits v.toNat 32 ++ rest) .badParam
      ((binBits v.toNat 32).length + 0) :=
    (Reads.readBits (by decide) v.isLt).bind_fails ((Fails.raiseIf hbad _ rest).bind _)
  rwa [binBits_length] at hfail

theorem Fails.readParam_end {bits : List Bool} (hshort : bits.length < 32) :
    Fails Machine.readParam bits .endOfStream 0 := (Fails.readBits hshort).bind _

section Params
variable {h : Header} {m0 m1 : Nat}

theorem stereo_iff (h : Header) : h.stereo = true ↔ h.channels = 2 := by simp [Header.stereo]

/-- In dynamic mode the first field comes first (43_block_codec.md R230). -/
theorem readParams_dynamic (hd : h.dynamic = 1) :
    readParams h = (do
      let m0 ← readParam
      if h.stereo = false then return (m0, h.staticDivisor)
      let m1 ← readParam
      return (m0, m1)) := if_pos hd

theorem readParams_static (hd : h.dynamic = 0) :
    readParams h = pure (h.staticDivisor, h.staticDivisor) := if_neg (by simp [hd])

/-- The divisors of a block: its fields, or the header's (43_block_codec.md R230). -/
theorem Reads.readParams (hm : DivisorsOk h m0 m1) :
    Reads (Machine.readParams h) (paramBits h m0 m1) (m0, if h.stereo then m1 else h.staticDivisor) := by
  obtain ⟨hpos0, hle0, hpos1, hle1, hstatic⟩ := hm
  rcases BitVec.eq_zero_or_eq_one h.dynamic with hd | hd
  · obtain ⟨h0, h1⟩ := hstatic hd
    have hbits : paramBits h m0 m1 = [] := if_neg (by simp [hd])
    have hvalue : (m0, if h.stereo then m1 else h.staticDivisor) = (h.staticDivisor, h.staticDivisor) := by
      rw [h0, h1]
      exact congrArg _ (ite_self _)
    rw [readParams_static hd, hbits, hvalue]
    exact .pure _
  · have hbits : paramBits h m0 m1 = binBits m0 32 ++ if h.channels = 2 then binBits m1 32 else [] :=
      if_pos hd
    rw [readParams_dynamic hd, hbits]
    refine (Reads.readParam hpos0 hle0).bind ?_
    cases hs : h.stereo with
    | false =>
      rw [if_neg (mt (stereo_iff h).mpr (by simp [hs]))]
      exact .pure _
    | true =>
      rw [if_pos ((stereo_iff h).mp hs)]
      exact (Reads.readParam hpos1 hle1).map _

end Params

/-! ### One channel -/

section Channel
variable {m order w : Nat} {scheme : Scheme} {lo hi : Int}

/-- Every entry the predictor looks at is a sample, or 0 (43_block_codec.md R212). -/
theorem abs_getD_le {prev : List Int} {a : Int} (ha : 0 ≤ a) (hprev : ∀ y ∈ prev, |y| ≤ a) (i : Nat) :
    |prev.getD i 0| ≤ a := by
  rw [List.getD_eq_getElem?_getD]
  cases hi : prev[i]? with
  | none => simpa using ha
  | some y => exact hprev y (List.mem_of_getElem? hi)

/-- A coded value is in INT32 (42_predictor_stereo.md R199). -/
theorem coded_inInt32 {i : Nat} {prev : List Int} {x : Int} (horder : order ≤ 3)
    (hx : |x| ≤ 65535) (hprev : ∀ y ∈ prev, |y| ≤ 65535) :
    InInt32 (if i < w then x else x - predictFrom order prev) := by
  have hresidual : |x - predictFrom order prev| ≤ 8 * 65535 :=
    abs_residual_le horder hx (abs_getD_le (by decide) hprev 0) (abs_getD_le (by decide) hprev 1)
      (abs_getD_le (by decide) hprev 2)
  rw [abs_le] at hx hresidual
  split <;> constructor <;> omega

/-- The bounds of a channel's samples: INT16, or 65535 on the side (43_block_codec.md R232). -/
theorem abs_le_of_bounds {x : Int} (hlo : -65535 ≤ lo) (hhi : hi ≤ 65535) (hx : lo ≤ x ∧ x ≤ hi) :
    |x| ≤ 65535 := abs_le.mpr ⟨hlo.trans hx.1, hx.2.trans hhi⟩

/-- The codes of good samples are read one by one (43_block_codec.md R231, R232). -/
theorem readChannel_of_prefix (hm : 1 ≤ m) (horder : order ≤ 3) (hlo : -65535 ≤ lo) (hhi : hi ≤ 65535)
    (n : Nat) (xs : List Int) : ∀ (i : Nat) (prev : List Int) (b : BitChannel),
    (∀ x ∈ prev, lo ≤ x ∧ x ≤ hi) → (∀ x ∈ xs, lo ≤ x ∧ x ≤ hi) →
    (codedFrom order w i prev xs).flatMap (scode m scheme) <+: b.unread →
    readChannel m scheme order w lo hi (xs.length + n) i prev b =
      readChannel m scheme order w lo hi n (i + xs.length) (xs.reverse ++ prev)
        (consumed ((codedFrom order w i prev xs).flatMap (scode m scheme)).length b) := by
  induction xs with
  | nil => intro i prev b _ _ _; simp [codedFrom]
  | cons x xs ih =>
    intro i prev b hprev hxs hnext
    obtain ⟨hx, hrest⟩ := List.forall_mem_cons.mp hxs
    have hcoded : InInt32 (if i < w then x else x - predictFrom order prev) :=
      coded_inInt32 horder (abs_le_of_bounds hlo hhi hx) fun y hy => abs_le_of_bounds hlo hhi (hprev y hy)
    have hsample : (if i < w then (if i < w then x else x - predictFrom order prev)
        else predictFrom order prev + (if i < w then x else x - predictFrom order prev)) = x := by
      split <;> omega
    rw [codedFrom, List.flatMap_cons] at hnext ⊢
    have hcode := Reads.decodeSigned scheme hm hcoded b ((List.prefix_append _ _).trans hnext)
    have htail := prefix_drop_of_append_prefix hnext
    rw [← unread_consumed] at htail
    rw [List.length_cons, Nat.add_right_comm, readChannel, bind_of_ok hcode]
    rw [hsample, bind_of_ok (raiseIf_neg (not_not.mpr hx) _ _),
      ih (i + 1) (x :: prev) _ (List.forall_mem_cons.mpr ⟨hx, hprev⟩) hrest htail, consumed_consumed,
      List.length_append, List.reverse_cons, List.append_assoc, Nat.add_right_comm, Nat.add_assoc i]
    rfl

/-- A whole channel (43_block_codec.md R231). -/
theorem Reads.readChannel (hm : 1 ≤ m) (horder : order ≤ 3) (hlo : -65535 ≤ lo) (hhi : hi ≤ 65535)
    {xs : List Int} (hxs : ∀ x ∈ xs, lo ≤ x ∧ x ≤ hi) :
    Reads (Machine.readChannel m scheme order w lo hi xs.length 0 [])
      ((codedValues order w xs).flatMap (scode m scheme)) xs := by
  intro b hnext
  have hread := readChannel_of_prefix (scheme := scheme) (w := w) hm horder hlo hhi 0 xs 0 [] b nofun hxs hnext
  rw [Nat.add_zero, List.append_nil] at hread
  rw [hread, Machine.readChannel, pure_apply, List.reverse_reverse]
  rfl

/-- A channel that fails after good samples fails where the rest of it does. -/
theorem Fails.readChannel (hm : 1 ≤ m) (horder : order ≤ 3) (hlo : -65535 ≤ lo) (hhi : hi ≤ 65535)
    {xs : List Int} (hxs : ∀ x ∈ xs, lo ≤ x ∧ x ≤ hi) {n : Nat} {bits : List Bool} {e : Raise} {k : Nat}
    (hfail : Fails (Machine.readChannel m scheme order w lo hi n xs.length xs.reverse) bits e k) :
    Fails (Machine.readChannel m scheme order w lo hi (xs.length + n) 0 [])
      ((codedValues order w xs).flatMap (scode m scheme) ++ bits) e
      (((codedValues order w xs).flatMap (scode m scheme)).length + k) := by
  intro b hb
  have hread := readChannel_of_prefix (scheme := scheme) (w := w) hm horder hlo hhi n xs 0 [] b nofun hxs
    (hb ▸ List.prefix_append _ _)
  have hrest : (consumed ((codedValues order w xs).flatMap (scode m scheme)).length b).unread = bits := by
    rw [unread_consumed, hb, List.drop_left]
  rw [List.append_nil, Nat.zero_add] at hread
  rw [hread, ← consumed_consumed]
  exact hfail _ hrest

end Channel

end Sys2Proof.Machine
end

section
/-!
A whole block on decode: parameters, mid or mono channel, side channel and the samples put out
(43_block_codec.md R230 to R238), and BLK_DECODE_NEXT.
-/

namespace Sys2Proof.Machine

open Sys2Proof.Claims

section Block
variable {h : Header} {len m0 m1 : Nat} {x0 x1 : List Int}

/-- A block is its parameter fields and its channels' codes (30_encoding.md R88, R91). -/
theorem blockBits_eq (h : Header) (m0 m1 : Nat) (x0 x1 : List Int) :
    h.blockBits m0 m1 x0 x1 = paramBits h m0 m1 ++ (sampleCodes h x0.length m0 x0 ++
      if h.stereo then sampleCodes h x1.length m1 x1 else []) := by
  have hparams : (if h.stereo then binBits m1 32 else []) = if h.channels = 2 then binBits m1 32 else [] := by
    simp only [stereo_iff]
  rw [Header.blockBits, paramBits, hparams, List.append_assoc]
  rfl

/-- The samples to put out are checked after the side channel (43_block_codec.md R233). -/
theorem readBlock_stereo (hstereo : h.stereo = true) (len : Nat) :
    readBlock h len = (do
      let m ← readParams h
      let x0 ← readChannel m.1 h.scheme h.order.toNat (h.warmup len) (-32768) 32767 len 0 []
      let x1 ← readChannel m.2 h.scheme h.order.toNat (h.warmup len) (-65535) 65535 len 0 []
      raiseIf (¬ ∀ y ∈ h.outputSamples x0 x1, InInt16 y) .sampleRange
      return (x0, x1)) := by
  simp only [readBlock, hstereo, Bool.true_eq_false, if_false]
  rfl

theorem readBlock_mono (hmono : h.stereo = false) (len : Nat) :
    readBlock h len = (do
      let m ← readParams h
      let x0 ← readChannel m.1 h.scheme h.order.toNat (h.warmup len) (-32768) 32767 len 0 []
      return (x0, [])) := by
  simp only [readBlock, hmono, if_true]

/-- A whole block of good samples is read back (43_block_codec.md R230 to R233). -/
theorem Reads.readBlock (hlegal : h.Legal) (hm : DivisorsOk h m0 m1) (h0 : x0.length = len)
    (hx0 : ∀ x ∈ x0, InInt16 x) (hmono : h.stereo = false → x1 = [])
    (h1 : h.stereo = true → x1.length = len) (hx1 : ∀ x ∈ x1, -65535 ≤ x ∧ x ≤ 65535)
    (hout : ∀ y ∈ h.outputSamples x0 x1, InInt16 y) :
    Reads (Machine.readBlock h len) (h.blockBits m0 m1 x0 x1) (x0, x1) := by
  obtain ⟨-, -, horder, -, -⟩ := hlegal
  obtain ⟨hpos0, -, hpos1, -, -⟩ := id hm
  subst h0
  rw [blockBits_eq]
  have hmid : Reads (Machine.readChannel m0 h.scheme h.order.toNat (h.warmup x0.length) (-32768) 32767
      x0.length 0 []) (sampleCodes h x0.length m0 x0) x0 :=
    Reads.readChannel hpos0 horder (by decide) (by decide) hx0
  have hparams := Reads.readParams hm
  cases hs : h.stereo with
  | false =>
    rw [hmono hs, readBlock_mono hs]
    exact hparams.bind (hmid.bind (.pure _))
  | true =>
    have hside := Reads.readChannel (scheme := h.scheme) (w := h.warmup x0.length) hpos1 horder (by decide)
      (by decide) hx1
    rw [h1 hs] at hside ⊢
    rw [hs] at hparams
    rw [readBlock_stereo hs, if_pos rfl, ← List.append_nil (sampleCodes h x0.length m1 x1)]
    exact hparams.bind (hmid.bind (hside.bind ((Reads.raiseIf (not_not.mpr hout)).bind (.pure _))))

/-- A block that fails in a channel, after good samples, fails where the rest of the channel does
(43_block_codec.md R230 to R232). -/
theorem Fails.readBlock_inBlock (hlegal : h.Legal) (hm : DivisorsOk h m0 m1) {pre bits : List Bool}
    {m k : Nat} {lo hi : Int} {xs : List Int} {e : Raise} (hin : InBlock h len m0 m1 pre m lo hi xs)
    (hfail : 1 ≤ m → Fails (Machine.readChannel m h.scheme h.order.toNat (h.warmup len) lo hi
      (len - xs.length - 1 + 1) xs.length xs.reverse) bits e k) :
    Fails (Machine.readBlock h len) (pre ++ bits) e (pre.length + k) := by
  obtain ⟨-, -, horder, -, -⟩ := hlegal
  obtain ⟨hpos0, -, hpos1, -, -⟩ := id hm
  obtain ⟨hlt, hxs, ⟨rfl, rfl, rfl, rfl⟩ | ⟨hchannels, rfl, rfl, rfl, x0, h0, hx0, rfl⟩⟩ := hin
  · have hchannel := Fails.readChannel hpos0 horder (by decide) (by decide) hxs (hfail hpos0)
    rw [show xs.length + (len - xs.length - 1 + 1) = len by omega] at hchannel
    rw [List.append_assoc, List.length_append, Nat.add_assoc]
    exact (Reads.readParams hm).bind_fails (hchannel.bind _)
  · have hs := (stereo_iff h).mpr hchannels
    have hchannel := Fails.readChannel hpos1 horder (by decide) (by decide) hxs (hfail hpos1)
    rw [show xs.length + (len - xs.length - 1 + 1) = len by omega] at hchannel
    have hmid : Reads (Machine.readChannel m0 h.scheme h.order.toNat (h.warmup len) (-32768) 32767
        len 0 []) (sampleCodes h len m0 x0) x0 := by
      rw [← h0]
      exact Reads.readChannel hpos0 horder (by decide) (by decide) hx0
    have hparams := Reads.readParams hm
    rw [hs, if_pos rfl] at hparams
    rw [readBlock_stereo hs, List.append_assoc, List.append_assoc, List.length_append,
      List.length_append, Nat.add_assoc, Nat.add_assoc]
    exact hparams.bind_fails (hmid.bind_fails (hchannel.bind _))

/-- A code that fails (43_block_codec.md R231). -/
theorem Fails.readChannel_code {m order w n i k : Nat} {scheme : Scheme} {lo hi : Int} {prev : List Int}
    {bits : List Bool} {e : Raise} (hm : 1 ≤ m) (hcode : CodeFails m (some scheme) bits e k) :
    Fails (Machine.readChannel m scheme order w lo hi (n + 1) i prev) bits e k :=
  (decodeSigned_fails hm hcode).bind _

/-- A sample out of its range raises right after its code (43_block_codec.md R232). -/
theorem Fails.readChannel_range {m order w n i : Nat} {scheme : Scheme} {lo hi d : Int}
    {prev : List Int} (hm : 1 ≤ m) (hd : InInt32 d)
    (hbad : ¬ (lo ≤ (if i < w then d else predictFrom order prev + d) ∧
      (if i < w then d else predictFrom order prev + d) ≤ hi)) (rest : List Bool) :
    Fails (Machine.readChannel m scheme order w lo hi (n + 1) i prev) (scode m scheme d ++ rest)
      .sampleRange (scode m scheme d).length :=
  Reads.bind_fails (k := 0) (.decodeSigned scheme hm hd) ((Fails.raiseIf hbad _ rest).bind _)

/-- A whole stereo block with a left or right sample outside INT16 (43_block_codec.md R233). -/
theorem Fails.readBlock_output (hlegal : h.Legal) (hm : DivisorsOk h m0 m1) (hs : h.stereo = true)
    (h0 : x0.length = len) (h1 : x1.length = len) (hx0 : ∀ x ∈ x0, InInt16 x)
    (hx1 : ∀ x ∈ x1, -65535 ≤ x ∧ x ≤ 65535) (hout : ¬ ∀ y ∈ h.outputSamples x0 x1, InInt16 y)
    (rest : List Bool) :
    Fails (Machine.readBlock h len) (h.blockBits m0 m1 x0 x1 ++ rest) .sampleRange
      (h.blockBits m0 m1 x0 x1).length := by
  obtain ⟨-, -, horder, -, -⟩ := hlegal
  obtain ⟨hpos0, -, hpos1, -, -⟩ := id hm
  have hmid := Reads.readChannel (scheme := h.scheme) (w := h.warmup x0.length) hpos0 horder (by decide)
    (by decide) hx0
  have hside := Reads.readChannel (scheme := h.scheme) (w := h.warmup x0.length) hpos1 horder (by decide)
    (by decide) hx1
  have hparams := Reads.readParams hm
  rw [hs, if_pos rfl] at hparams
  subst h0
  rw [h1] at hside
  rw [readBlock_stereo hs, blockBits_eq, hs, if_pos rfl, h1, List.append_assoc, List.append_assoc,
    List.length_append, List.length_append]
  exact hparams.bind_fails (hmid.bind_fails (Reads.bind_fails (k := 0) hside
    ((Fails.raiseIf hout _ rest).bind _)))

end Block

/-! ### BLK_DECODE_NEXT -/

section DecodeNext
variable {s : State} {bits : List Bool}

theorem exec_blkDecodeNext (hphase : s.phase = .decBlocks) (hmode : s.bc.mode = .read) :
    exec .blkDecodeNext s = execute decodeNextBody s :=
  execute_guarded (by simpa using hphase) (by simpa using hmode)

theorem decodeNextBody_ok {x : List Int × List Int}
    (hread : Reads (readBlock s.hdr (s.hdr.blockLen s.framesDone)) bits x)
    (hnext : bits <+: s.bc.unread) :
    decodeNextBody s =
      .ok () (({ s with bc := consumed bits.length s.bc }.appendBlock x).endRun .decEnd) := by
  rw [decodeNextBody, bind_of_ok (get_apply s), bind_of_ok (onChannel_ok (hread.structural s.bc hnext))]
  rfl

theorem exec_blkDecodeNext_fails (hphase : s.phase = .decBlocks) (hmode : s.bc.mode = .read)
    {e : Raise} {k : Nat} (hfail : Fails (readBlock s.hdr (s.hdr.blockLen s.framesDone)) s.bc.unread e k) :
    exec .blkDecodeNext s = .next (failAt k (if e = .endOfStream then .unexpectedEos else e) s) := by
  rw [exec_blkDecodeNext hphase hmode, decodeNextBody, execute_bind_ok (get_apply s)]
  exact execute_onChannel_fails _ hfail.structural

end DecodeNext

/-! ### Raising in stream order -/

section Raises
variable {h : Header} {bits : List Bool} {e : Raise} {k : Nat}

/-- The first parameter field of a block fails (43_block_codec.md R230). -/
theorem Fails.readBlock_param0 (hd : h.dynamic = 1) (len : Nat) (hfail : Fails Machine.readParam bits e k) :
    Fails (Machine.readBlock h len) bits e k := by
  have hparams : Fails (Machine.readParams h) bits e k := by
    rw [readParams_dynamic hd]
    exact hfail.bind _
  exact hparams.bind _

/-- The second one fails after a good first one (43_block_codec.md R230). -/
theorem Fails.readBlock_param1 (hd : h.dynamic = 1) (hs : h.stereo = true) (len : Nat) {m0 : Nat}
    (hpos : 1 ≤ m0) (hle : m0 ≤ 2147483647) (hfail : Fails Machine.readParam bits e k) :
    Fails (Machine.readBlock h len) (binBits m0 32 ++ bits) e (32 + k) := by
  have hparams : Fails (Machine.readParams h) (binBits m0 32 ++ bits) e ((binBits m0 32).length + k) := by
    rw [readParams_dynamic hd, hs]
    exact (Reads.readParam hpos hle).bind_fails (hfail.bind _)
  rw [binBits_length] at hparams
  exact hparams.bind _

theorem mem_outputSamples {x0 x1 : List Int} (hs : h.stereo = true) {p : Int × Int}
    (hp : p ∈ x0.zip x1) {y : Int} (hy : y = (toLeftRight p.1 p.2).1 ∨ y = (toLeftRight p.1 p.2).2) :
    y ∈ h.outputSamples x0 x1 := by
  rw [Header.outputSamples, if_pos hs, ← List.map_uncurry_zip_eq_zipWith, List.mem_flatMap]
  exact ⟨_, List.mem_map_of_mem hp, by simpa [Function.uncurry] using hy⟩

end Raises

/-- Settles O60: the block's readers fail in stream order, each after what comes before it has been
read. -/
theorem blkDecodeNextRaisesInStreamOrder : Obligations.BlkDecodeNextRaisesInStreamOrder := by
  intro s hphase hmode hlegal
  have hexec : ∀ {e k bits}, bits = s.bc.unread →
      Fails (readBlock s.hdr (s.hdr.blockLen s.framesDone)) bits e k →
      exec .blkDecodeNext s = .next (failAt k (if e = .endOfStream then .unexpectedEos else e) s) :=
    fun hbits hfail => exec_blkDecodeNext_fails hphase hmode (hbits ▸ hfail)
  refine ⟨fun hd => ⟨fun hshort => ?_, fun v hv ⟨rest, hrest⟩ => ?_, fun m0 hchannels hpos hle hbits =>
    ⟨fun hshort => ?_, fun v hv ⟨rest, hrest⟩ => ?_⟩⟩,
    fun m0 m1 m pre lo hi xs hm hin => ⟨fun bs e k hbits hcode => ?_, fun d hd hbad ⟨rest, hrest⟩ => ?_⟩,
    fun m0 m1 x0 x1 hm hchannels h0 h1 hx0 hx1 ⟨p, hp, hbad⟩ ⟨rest, hrest⟩ => ?_⟩
  · exact hexec rfl (.readBlock_param0 hd _ (.readParam_end hshort))
  · exact hexec hrest (.readBlock_param0 hd _ (.readParam_bad hv rest))
  · obtain ⟨rest, hrest⟩ := hbits
    have hlength : rest.length < 32 := by
      rw [← hrest, List.length_append, binBits_length] at hshort
      omega
    exact hexec hrest
      (.readBlock_param1 hd ((stereo_iff _).mpr hchannels) _ hpos hle (.readParam_end hlength))
  · rw [List.append_assoc] at hrest
    exact hexec hrest
      (.readBlock_param1 hd ((stereo_iff _).mpr hchannels) _ hpos hle (.readParam_bad hv rest))
  · exact hexec hbits.symm (.readBlock_inBlock hlegal hm hin fun hpos => .readChannel_code hpos hcode)
  · rw [List.append_assoc] at hrest
    rw [List.length_append]
    exact hexec hrest (.readBlock_inBlock hlegal hm hin fun hpos =>
      .readChannel_range hpos hd hbad rest)
  · have hs := (stereo_iff _).mpr hchannels
    have hout : ¬ ∀ y ∈ s.hdr.outputSamples x0 x1, InInt16 y := fun hall =>
      hbad.elim (· (hall _ (mem_outputSamples hs hp (.inl rfl))))
        (· (hall _ (mem_outputSamples hs hp (.inr rfl))))
    exact hexec hrest (.readBlock_output hlegal hm hs h0 h1 hx0 hx1 hout rest)

/-! ### Samples -/

section Samples
variable {h : Header} {pcm : List Sample} {f0 len : Nat}

theorem inInt16_sampleInt (x : Sample) : InInt16 (sampleInt x) := by
  have hlow := BitVec.le_toInt x
  have hhigh := BitVec.toInt_lt (x := x)
  simp only [sampleInt]
  omega

/-- A sample read as an integer is the sample (20_memory.md R67, R68). -/
theorem sampleOf_sampleInt (x : Sample) : sampleOf (sampleInt x) = x := BitVec.ofInt_toInt

/-- The samples of the frames from `f0` on are a piece of PCM_IN. -/
theorem map_pcmAt {a n : Nat} (hlength : a + n ≤ pcm.length) :
    (List.range n).map (fun k => pcmAt pcm (a + k)) = ((pcm.drop a).take n).map sampleInt := by
  refine List.ext_getElem (by simp; omega) fun k hk _ => ?_
  have hinside : a + k < pcm.length := by
    simp only [List.length_map, List.length_range] at hk
    omega
  simp [pcmAt, List.getD_eq_getElem?_getD, hinside]

/-- The samples of the channels are bounded (42_predictor_stereo.md R197). -/
theorem channelSamples_bounds (h : Header) (pcm : List Sample) (f0 len : Nat) :
    (∀ x ∈ (h.channelSamples pcm f0 len).1, InInt16 x) ∧
      (∀ x ∈ (h.channelSamples pcm f0 len).2, -65535 ≤ x ∧ x ≤ 65535) ∧
      (h.stereo = false → (h.channelSamples pcm f0 len).2 = []) := by
  have hms : ∀ k k', InInt16 (toMidSide (pcmAt pcm k) (pcmAt pcm k')).1 ∧
      -65535 ≤ (toMidSide (pcmAt pcm k) (pcmAt pcm k')).2 ∧
      (toMidSide (pcmAt pcm k) (pcmAt pcm k')).2 ≤ 65535 := fun k k' =>
    toMidSide_bounds (inInt16_sampleInt _) (inInt16_sampleInt _)
  unfold Header.channelSamples
  split
  next hs =>
    simp only [List.map_map, List.forall_mem_map]
    exact ⟨fun i _ => (hms _ _).1, fun i _ => (hms _ _).2, fun hmono => by simp [hmono] at hs⟩
  next =>
    simp only [List.forall_mem_map]
    exact ⟨fun i _ => inInt16_sampleInt _, nofun, fun _ => trivial⟩

/-- Left and right come back in frame order (43_block_codec.md R233, R238). -/
theorem outputSamples_channelSamples (h : Header) (pcm : List Sample) (f0 len : Nat) :
    h.outputSamples (h.channelSamples pcm f0 len).1 (h.channelSamples pcm f0 len).2 =
      (List.range (h.channelCount * len)).map fun k => pcmAt pcm (h.channelCount * f0 + k) := by
  cases hs : h.stereo with
  | false => simp [Header.outputSamples, Header.channelSamples, Header.channelCount, hs]
  | true =>
    simp only [Header.outputSamples, Header.channelSamples, Header.channelCount, hs, if_true]
    rw [List.map_map, List.map_map, List.zipWith_map, List.zipWith_self]
    simp only [Function.comp_apply, toLeftRight_toMidSide]
    induction len with
    | zero => rfl
    | succ len ih =>
      rw [List.range_succ, List.map_append, List.flatMap_append, ih, Nat.mul_add_one,
        List.range_succ, List.range_succ]
      simp [Nat.mul_add, Nat.add_assoc]

/-- What a decoded block puts out is the piece of PCM_IN it was encoded from (43_block_codec.md R236). -/
theorem map_sampleOf_outputSamples (hlength : h.channelCount * f0 + h.channelCount * len ≤ pcm.length) :
    (h.outputSamples (h.channelSamples pcm f0 len).1 (h.channelSamples pcm f0 len).2).map sampleOf =
      (pcm.drop (h.channelCount * f0)).take (h.channelCount * len) := by
  rw [outputSamples_channelSamples, map_pcmAt hlength, List.map_map]
  simp [Function.comp_def, sampleOf_sampleInt]

theorem outputSamples_inInt16 (h : Header) (pcm : List Sample) (f0 len : Nat) :
    ∀ y ∈ h.outputSamples (h.channelSamples pcm f0 len).1 (h.channelSamples pcm f0 len).2, InInt16 y := by
  rw [outputSamples_channelSamples]
  simp only [List.forall_mem_map]
  exact fun k _ => inInt16_sampleInt _

/-- A block of the grammar is read back (43_block_codec.md R236). -/
theorem Reads.readBlock_channelSamples {m0 m1 : Nat} (hlegal : h.Legal) (hm : DivisorsOk h m0 m1)
    (pcm : List Sample) (f0 len : Nat) :
    Reads (Machine.readBlock h len)
      (h.blockBits m0 m1 (h.channelSamples pcm f0 len).1 (h.channelSamples pcm f0 len).2)
      (h.channelSamples pcm f0 len) := by
  obtain ⟨hx0, hx1, hmono⟩ := channelSamples_bounds h pcm f0 len
  exact Reads.readBlock hlegal hm (channelSamples_length0 _ _ _ _) hx0 hmono
    (fun hs => by rw [channelSamples_length1, if_pos hs]) hx1 (outputSamples_inInt16 h pcm f0 len)

theorem channelCount_eq (hlegal : h.Legal) : h.channelCount = h.channels.toNat := by
  obtain ⟨-, hchannels, -⟩ := hlegal
  rcases hchannels with hc | hc <;> simp [Header.channelCount, Header.stereo, hc]

/-- A block with frames has bits: each channel has at least one code. -/
theorem blockBits_length_ne_zero {m0 m1 : Nat} {x0 x1 : List Int} (h0 : x0.length ≠ 0) :
    (h.blockBits m0 m1 x0 x1).length ≠ 0 := by
  obtain ⟨x, xs, rfl⟩ := List.exists_cons_of_length_pos (Nat.pos_of_ne_zero h0)
  have hcode := scode_ne_nil m0 h.scheme (if 0 < h.warmup (x :: xs).length then x
    else x - predictFrom h.order.toNat [])
  rw [blockBits_eq, sampleCodes, codedValues, codedFrom, List.flatMap_cons]
  simp only [List.length_append]
  omega

end Samples

/-- The state after a block of the grammar has been decoded (43_block_codec.md R234 to R238). -/
theorem decodeNextBody_block {s : State} {pcm : List Sample} {f0 m0 m1 : Nat} (hlegal : s.hdr.Legal)
    (hm : DivisorsOk s.hdr m0 m1)
    (hlength : s.hdr.channelCount * f0 + s.hdr.channelCount * s.hdr.blockLen s.framesDone ≤ pcm.length)
    (hnext : s.hdr.blockBits m0 m1 (s.hdr.channelSamples pcm f0 (s.hdr.blockLen s.framesDone)).1
      (s.hdr.channelSamples pcm f0 (s.hdr.blockLen s.framesDone)).2 <+: s.bc.unread) :
    decodeNextBody s = .ok () { s with
      bc := consumed (s.hdr.blockBits m0 m1
        (s.hdr.channelSamples pcm f0 (s.hdr.blockLen s.framesDone)).1
        (s.hdr.channelSamples pcm f0 (s.hdr.blockLen s.framesDone)).2).length s.bc
      pcmOut := s.pcmOut ++ (pcm.drop (s.hdr.channelCount * f0)).take
        (s.hdr.channelCount * s.hdr.blockLen s.framesDone)
      hist0 := s.hist0 ++ (s.hdr.channelSamples pcm f0 (s.hdr.blockLen s.framesDone)).1
      hist1 := s.hist1 ++ (s.hdr.channelSamples pcm f0 (s.hdr.blockLen s.framesDone)).2
      framesDone := s.framesDone + s.hdr.blockLen s.framesDone
      phase := if s.framesDone + s.hdr.blockLen s.framesDone = s.hdr.totalFrames.toNat then .decEnd
        else s.phase } := by
  rw [decodeNextBody_ok (Reads.readBlock_channelSamples hlegal hm pcm f0 _) hnext, State.endRun_eq,
    ← map_sampleOf_outputSamples hlength]
  rfl

/-- Settles O45: past the guards the command is one block, which is read back and is not empty. -/
theorem blkDecodeNextInvertsTheBlock : Obligations.BlkDecodeNextInvertsTheBlock := by
  intro s pcm m0 m1 hphase hmode hlegal hframes hlength hpos0 hle0 hpos1 hle1 hstatic hnext
  have hm : DivisorsOk s.hdr m0 m1 := ⟨hpos0, hle0, hpos1, hle1, hstatic⟩
  obtain ⟨hsize, -⟩ := id hlegal
  have hlen := blockLen_pos hsize hframes
  rw [← channelCount_eq hlegal] at hlength
  have h0 : (s.hdr.channelSamples pcm 0 (s.hdr.blockLen s.framesDone)).1.length ≠ 0 := by
    rw [channelSamples_length0]
    exact hlen.ne'
  have hne := blockBits_length_ne_zero (h := s.hdr) (m0 := m0) (m1 := m1)
    (x1 := (s.hdr.channelSamples pcm 0 (s.hdr.blockLen s.framesDone)).2) h0
  have hbody := decodeNextBody_block hlegal hm (by rw [hlength]; omega) hnext
  rw [Nat.mul_zero, List.drop_zero, List.take_of_length_le hlength.le, consumed_pos hne, hphase] at hbody
  rw [exec_blkDecodeNext hphase hmode, execute_ok hbody]
  simp only [State.succeed]

end Sys2Proof.Machine
end

section
/-!
Whole streams: a flushed writer holds the bits written, zero-padded to whole bytes (20_memory.md R69,
40_bitchannel.md R128, R135), and those bytes give a reader the bits back.
-/

namespace Sys2Proof.Machine

open Sys2Proof.Claims

/-! ### Packing bits into bytes -/

/-- Bit `j` of the string is bit `7 - j` of the byte (20_memory.md R69). -/
theorem packByte_getLsbD (bits : List Bool) {j : Nat} (hj : j < 8) :
    (packByte bits).getLsbD (7 - j) = bits.getD j false := by
  have hbits : ∀ a b c d e f g h : Bool, ∀ j < 8,
      (BitVec.ofNat 8 [a.toNat * 2 ^ 7, b.toNat * 2 ^ 6, c.toNat * 2 ^ 5, d.toNat * 2 ^ 4,
        e.toNat * 2 ^ 3, f.toNat * 2 ^ 2, g.toNat * 2 ^ 1, h.toNat * 2 ^ 0].sum).getLsbD (7 - j) =
        [a, b, c, d, e, f, g, h].getD j false := by decide
  have hbyte := hbits (bits.getD 0 false) (bits.getD 1 false) (bits.getD 2 false) (bits.getD 3 false)
    (bits.getD 4 false) (bits.getD 5 false) (bits.getD 6 false) (bits.getD 7 false) j hj
  refine Eq.trans hbyte ?_
  interval_cases j <;> rfl

@[simp] theorem packBits_length (bits : List Bool) : (packBits bits).length = (bits.length + 7) / 8 := by
  simp [packBits]

/-- The bytes of a bit string have its bits, and zeros after them (20_memory.md R69). -/
theorem streamOf_packBits (bits : List Bool) :
    streamOf (packBits bits) =
      bits ++ List.replicate (8 * ((bits.length + 7) / 8) - bits.length) false := by
  refine List.ext_getElem? fun i => ?_
  by_cases hi : i < 8 * ((bits.length + 7) / 8)
  · have hindex : i / 8 < (bits.length + 7) / 8 := by omega
    have hbyte : (packBits bits).getD (i / 8) 0 = packByte (bits.drop (8 * (i / 8))) := by
      simp [packBits, List.getD_eq_getElem?_getD, hindex]
    rw [streamOf_getElem? _ (by rwa [packBits_length]), hbyte,
      packByte_getLsbD _ (Nat.mod_lt i (by decide)), List.getD_eq_getElem?_getD, List.getElem?_drop,
      Nat.div_add_mod]
    by_cases hinside : i < bits.length
    · rw [List.getElem?_append_left hinside]
      simp [hinside]
    · rw [List.getElem?_append_right (Nat.le_of_not_lt hinside), List.getElem?_replicate_of_lt (by omega)]
      simp [hinside]
  · rw [List.getElem?_eq_none (by simp; omega), List.getElem?_eq_none (by simp; omega)]

theorem streamOf_injective : Function.Injective streamOf := by
  intro bs
  induction bs with
  | nil =>
    intro cs h
    have hlength := congrArg List.length h
    simpa using hlength.symm
  | cons x bs ih =>
    intro cs h
    cases cs with
    | nil => simpa using congrArg List.length h
    | cons y cs =>
      obtain ⟨hhead, htail⟩ := List.append_inj (s₁ := byteBits x) (s₂ := byteBits y) h (by simp)
      rw [ih htail, BitVec.eq_of_toNat_eq (binBits_injective x.isLt y.isLt hhead)]

/-- A reader of the packed bytes, whatever follows them, finds the bits. -/
theorem prefix_streamOf_packBits (bits : List Bool) (extra : List Byte) :
    bits <+: streamOf (packBits bits ++ extra) := by
  rw [streamOf, List.flatMap_append, ← streamOf, streamOf_packBits, List.append_assoc]
  exact List.prefix_append _ _

/-! ### Flushing -/

theorem written_length (b : BitChannel) : b.written.length = 8 * b.byteOut.length + b.wpos.val := by
  have hpos : b.wpos.val ≤ 8 := b.wpos.isLt.le
  simp [BitChannel.written, hpos]

/-- The bits of a clean pending byte that are not written are 0 (40_bitchannel.md R128). -/
theorem byteBits_wpend {b : BitChannel} (hclean : PendingClean b) :
    byteBits b.wpend = (byteBits b.wpend).take b.wpos.val ++ List.replicate (8 - b.wpos.val) false := by
  conv_lhs => rw [← List.take_append_drop b.wpos.val (byteBits b.wpend)]
  congr 1
  refine List.eq_replicate_iff.mpr ⟨by simp, fun x hx => ?_⟩
  obtain ⟨i, hi, rfl⟩ := List.mem_iff_getElem.mp hx
  rw [List.length_drop, byteBits_length] at hi
  rw [List.getElem_drop]
  simpa [byteBits] using (pendingClean_iff b).mp hclean (7 - (b.wpos.val + i)) (by omega)

/-- Flushing pads the last byte with zeros (40_bitchannel.md R128). -/
theorem streamOf_flush {b : BitChannel} (hclean : PendingClean b) :
    streamOf b.flush.byteOut =
      b.written ++ List.replicate (8 * ((b.written.length + 7) / 8) - b.written.length) false := by
  have hlength := written_length b
  have hpos := b.wpos.isLt
  by_cases hwpos : b.wpos = 0
  · have hzero : b.wpos.val = 0 := congrArg Fin.val hwpos
    rw [flush_of_aligned hwpos, show 8 * ((b.written.length + 7) / 8) - b.written.length = 0 by omega,
      BitChannel.written, hzero]
    simp
  · have hne : b.wpos.val ≠ 0 := fun h => hwpos (Fin.ext h)
    rw [flush_of_pending hwpos,
      show 8 * ((b.written.length + 7) / 8) - b.written.length = 8 - b.wpos.val by omega,
      BitChannel.written, List.append_assoc, ← byteBits_wpend hclean]
    exact streamOf_append_byte _ _

/-- A flushed writer holds the bits written (40_bitchannel.md R135). -/
theorem flush_byteOut {b : BitChannel} (hclean : PendingClean b) :
    b.flush.byteOut = packBits b.written :=
  streamOf_injective ((streamOf_flush hclean).trans (streamOf_packBits _).symm)

/-- Settles O29: the padded bits determine the bytes. -/
theorem flushedStreamIsThePaddedBits : Obligations.FlushedStreamIsThePaddedBits := by
  intro b hclean
  refine ⟨flush_byteOut hclean, by rw [flush_byteOut hclean, packBits_length], ?_, ?_⟩
  · rw [streamOf_flush hclean, List.take_left]
  · rw [streamOf_flush hclean, List.drop_left]
    exact fun x hx => List.eq_of_mem_replicate hx

end Sys2Proof.Machine
end

section
/-!
ENCODE_FILE (44_container.md R256): the blocks of a run one after another, and the close.
-/

namespace Sys2Proof.Machine

open Sys2Proof.Claims

/-! ### The writer's end -/

/-- BC_BYTE_COUNT counts the bytes of BYTE_OUT (10_state.md R32). -/
def BitChannel.Counted (b : BitChannel) : Prop := b.count = BitVec.ofNat 32 b.byteOut.length

theorem emitByte_counted {b : BitChannel} (x : Byte) (h : b.Counted) : (b.emitByte x).Counted := by
  unfold BitChannel.Counted at h ⊢
  rw [BitChannel.emitByte_count, BitChannel.emitByte_byteOut, h, List.length_append, BitVec.ofNat_add]
  rfl

theorem putBits_counted (bits : List Bool) {b : BitChannel} (h : b.Counted) : (b.putBits bits).Counted := by
  induction bits generalizing b with
  | nil => exact h
  | cons x xs ih =>
    rw [putBits_cons]
    refine ih ?_
    rcases writeBit_cases x b with ⟨_, hwrite⟩ | ⟨_, hwrite⟩ <;> rw [hwrite]
    · exact emitByte_counted _ h
    · exact h

theorem flush_counted {b : BitChannel} (h : b.Counted) : b.flush.Counted := by
  by_cases hpos : b.wpos = 0
  · rwa [flush_of_aligned hpos]
  · rw [flush_of_pending hpos]
    exact emitByte_counted _ h

theorem flush_pending {b : BitChannel} (hclean : PendingClean b) :
    b.flush.wpos = 0 ∧ b.flush.wpend = 0 := by
  by_cases hpos : b.wpos = 0
  · rw [flush_of_aligned hpos]
    refine ⟨hpos, BitVec.eq_of_toNat_eq ?_⟩
    rw [PendingClean, hpos] at hclean
    exact (Nat.mod_eq_of_lt b.wpend.isLt).symm.trans hclean
  · rw [flush_of_pending hpos]
    exact ⟨rfl, rfl⟩

/-- A writer writes its own fields only. -/
theorem WriterFrame.eq {b c : BitChannel} (h : WriterFrame b c) :
    c = { b with wpend := c.wpend, wpos := c.wpos, count := c.count, byteOut := c.byteOut } := by
  obtain ⟨hmode, hrdpos, hdurable, hbyteIn, -⟩ := h
  rw [← hmode, ← hrdpos, ← hdurable, ← hbyteIn]

/-- A new writer, in the state BC_OPEN_WRITE leaves (40_bitchannel.md R122). -/
def BitChannel.newWriter (b : BitChannel) : BitChannel :=
  { b with byteOut := [], durable := false, wpend := 0, wpos := 0, count := 0, mode := .write }

theorem BitChannel.newWriter_written (b : BitChannel) : b.newWriter.written = [] := rfl

theorem BitChannel.newWriter_pendingClean (b : BitChannel) : PendingClean b.newWriter := Nat.zero_mod _

/-- A new writer that is given a bit string and flushed has that string in BYTE_OUT, padded. -/
theorem flush_putBits_newWriter (bits : List Bool) (b : BitChannel) :
    (b.newWriter.putBits bits).flush = { b with
      mode := .write, wpend := 0, wpos := 0, durable := false, byteOut := packBits bits
      count := BitVec.ofNat 32 (packBits bits).length } := by
  have hclean := putBits_pendingClean bits b.newWriter_pendingClean
  have hbytes : (b.newWriter.putBits bits).flush.byteOut = packBits bits := by
    rw [flush_byteOut hclean, putBits_written bits b.newWriter_pendingClean, b.newWriter_written,
      List.nil_append]
  have hcount : (b.newWriter.putBits bits).flush.Counted := flush_counted (putBits_counted bits rfl)
  obtain ⟨hpos, hpend⟩ := flush_pending hclean
  rw [((putBits_frame bits b.newWriter).trans (flush_frame _)).eq, hpos, hpend, hcount, hbytes]
  rfl

/-! ### The blocks -/

section Loop
variable {p : Phase} {body : Cmd Unit} {s t : State}

theorem whilePhase_of_ne (hphase : s.phase ≠ p) (fuel : Nat) : whilePhase p body fuel s = .ok () s := by
  cases fuel with
  | zero => rfl
  | succ fuel =>
    rw [whilePhase, bind_of_ok (get_apply s), if_neg hphase]
    rfl

theorem whilePhase_of_eq (hphase : s.phase = p) (hbody : body s = .ok () t) (fuel : Nat) :
    whilePhase p body (fuel + 1) s = whilePhase p body fuel t := by
  rw [whilePhase, bind_of_ok (get_apply s), if_pos hphase, bind_of_ok hbody]

theorem allBlocks_apply (p : Phase) (body : Cmd Unit) (s : State) :
    allBlocks p body s = whilePhase p body s.hdr.totalFrames.toNat s :=
  bind_of_ok (get_apply s)

end Loop

section Blocks
variable {h : Header} {pcm : List Sample} {f0 : Nat}

theorem blocksFrom_end (hend : h.totalFrames.toNat ≤ f0) (fuel : Nat) : h.blocksFrom pcm fuel f0 = [] := by
  cases fuel with
  | zero => rfl
  | succ fuel => exact if_neg hend.not_gt

theorem blocksFrom_next (hf : f0 < h.totalFrames.toNat) (fuel : Nat) :
    h.blocksFrom pcm (fuel + 1) f0 =
      h.encodedBlockBits pcm f0 ++ h.blocksFrom pcm fuel (f0 + h.blockLen f0) := if_pos hf

end Blocks

/-- The phase of a run: the end phase exactly when every frame is done (44_container.md R258). -/
def State.InRun (p q : Phase) (s : State) : Prop :=
  s.framesDone ≤ s.hdr.totalFrames.toNat ∧
    s.phase = if s.framesDone = s.hdr.totalFrames.toNat then q else p

theorem State.startRun_inRun (s : State) (h : Header) (p q : Phase) : (s.startRun h p q).InRun p q := by
  have hzero : h.totalFrames = 0 ↔ 0 = h.totalFrames.toNat := by
    rw [← BitVec.toNat_inj, eq_comm]
    rfl
  exact ⟨Nat.zero_le _, if_congr hzero rfl rfl⟩

/-- The blocks that are left are written after the bits already there (44_container.md R256). -/
theorem encodeBlocks_ok (fuel : Nat) : ∀ s : State, s.hdr.blockSize ≠ 0 →
    s.InRun .encBlocks .encEnd → s.hdr.totalFrames.toNat - s.framesDone ≤ fuel →
    ∃ h0 h1 : List Int, h0.length = s.hdr.totalFrames.toNat - s.framesDone ∧
      whilePhase .encBlocks encodeNextBody fuel s = .ok () { s with
        bc := s.bc.putBits (s.hdr.blocksFrom s.pcmIn fuel s.framesDone)
        hist0 := s.hist0 ++ h0, hist1 := s.hist1 ++ h1
        framesDone := s.hdr.totalFrames.toNat, phase := .encEnd } := by
  induction fuel with
  | zero =>
    rintro s - ⟨hle, hphase⟩ hfuel
    have hend : s.framesDone = s.hdr.totalFrames.toNat := by omega
    rw [if_pos hend] at hphase
    refine ⟨[], [], by simp [hend], ?_⟩
    rw [List.append_nil, List.append_nil, ← hend, ← hphase]
    rfl
  | succ fuel ih =>
    rintro s hsize ⟨hle, hphase⟩ hfuel
    by_cases hend : s.framesDone = s.hdr.totalFrames.toNat
    · rw [if_pos hend] at hphase
      refine ⟨[], [], by simp [hend], ?_⟩
      rw [whilePhase_of_ne (by rw [hphase]; decide), blocksFrom_end hend.ge, putBits_nil,
        List.append_nil, List.append_nil, ← hend, ← hphase]
    · rw [if_neg hend] at hphase
      have hlt : s.framesDone < s.hdr.totalFrames.toNat := by omega
      have hlen := blockLen_pos hsize hlt
      have hblock := blockLen_le s.hdr s.framesDone
      obtain ⟨t, ht, hbody⟩ : ∃ t, t = _ ∧ encodeNextBody s = .ok () t := ⟨_, rfl, encodeNextBody_eq s⟩
      obtain ⟨h0, h1, hlength, hrun⟩ := ih t (by rwa [ht])
        ⟨by rw [ht]; simp only; omega, by rw [ht]; simp only [hphase]⟩ (by rw [ht]; simp only; omega)
      rw [whilePhase_of_eq hphase hbody, hrun, blocksFrom_next hlt, putBits_append, ht]
      refine ⟨_, _, ?_, by simp only [List.append_assoc]; rfl⟩
      rw [List.length_append, channelSamples_length0, hlength, ht]
      simp only
      omega

/-! ### ENCODE_FILE -/

section EncodeFile
variable {s : State}

/-- The state in which the header has been written and the blocks begin (44_container.md R256). -/
def State.headerWritten (s : State) : State :=
  { s.afterDraw.startRun s.cfg .encBlocks .encEnd with bc := s.bc.newWriter.putBits s.cfg.bits }

/-- The state in which every block has been written and the close begins (44_container.md R256). -/
def State.fileWritten (s : State) (h0 h1 : List Int) : State :=
  { s.afterDraw with
    hdr := s.cfg, hdrValid := true, framesDone := s.cfg.totalFrames.toNat, hist0 := h0, hist1 := h1
    phase := .encEnd, bc := s.bc.newWriter.putBits (s.cfg.fileBits s.pcmIn) }

/-- ENCODE_FILE past its guards (44_container.md R256). -/
theorem exec_encodeFile (hphase : s.phase = .idle) (hmode : s.bc.mode = .idle ∨ s.bc.mode = .closed)
    (hok : ConfigOk s) :
    exec .encodeFile s = execute (do
      openWriteBody
      headerWriteBody
      allBlocks .encBlocks encodeNextBody
      closeBody) s :=
  (execute_guarded (by simpa using hphase) (by simpa using hmode)).trans
    (execute_bind_ok (validateCfg_ok hok))

/-- With a true draw at the open, header and blocks are written (44_container.md R256). -/
theorem exec_encodeFile_closes (hphase : s.phase = .idle)
    (hmode : s.bc.mode = .idle ∨ s.bc.mode = .closed) (hok : ConfigOk s) (hio : s.ioOk = true) :
    ∃ h0 h1 : List Int, h0.length = s.cfg.totalFrames.toNat ∧
      exec .encodeFile s = execute closeBody (s.fileWritten h0 h1) := by
  obtain ⟨⟨hsize, -⟩, -⟩ := id hok
  have hopen : openWriteBody s = .ok () { s.afterDraw with bc := s.bc.newWriter } := openWriteBody_ok hio
  have hheader : headerWriteBody { s.afterDraw with bc := s.bc.newWriter } = .ok () s.headerWritten :=
    headerWriteBody_ok hok
  obtain ⟨h0, h1, hlength, hblocks⟩ := encodeBlocks_ok s.cfg.totalFrames.toNat s.headerWritten hsize
    (s.afterDraw.startRun_inRun s.cfg .encBlocks .encEnd) le_rfl
  refine ⟨h0, h1, hlength, ?_⟩
  rw [exec_encodeFile hphase hmode hok, execute_bind_ok hopen, execute_bind_ok hheader,
    execute_bind_ok ((allBlocks_apply _ _ _).trans hblocks), State.fileWritten, Header.fileBits,
    putBits_append]
  simp only [State.headerWritten, State.startRun, List.nil_append, State.afterDraw_pcmIn]

end EncodeFile

/-- Settles O50: header and blocks are written, and the flushed writer holds their bits. -/
theorem encodeFileWritesTheStream : Obligations.EncodeFileWritesTheStream := by
  intro s hphase hmode hok hio hclose
  obtain ⟨h0, h1, hlength, hexec⟩ := exec_encodeFile_closes hphase hmode hok hio
  refine ⟨h0, h1, hlength, ?_⟩
  have hwrite : (s.fileWritten h0 h1).bc.mode = .write := (putBits_frame _ _).mode
  have hsink := closeSink_writer hwrite hclose
  rw [hexec, closeBody, execute_guarded (by decide : Phase.encEnd ∈ _) (by simp [hwrite]),
    execute_bind_ok hsink, execute_change]
  simp only [State.fileWritten, flush_putBits_newWriter, State.succeed]
  rfl

/-- Settles O51: each command stops at the draw that is refused. -/
theorem fileCommandsReportIoFailures : Obligations.FileCommandsReportIoFailures := by
  refine ⟨fun s hphase hmode hio => ⟨fun hok => ?_, ?_⟩, fun s hphase hmode hok hio hclose => ?_⟩
  · rw [exec_encodeFile hphase hmode hok]
    exact execute_bind_error (draw_fails hio)
  · refine (execute_guarded (by simpa using hphase) (by simpa using hmode)).trans ?_
    exact execute_bind_error (draw_fails hio)
  · obtain ⟨h0, h1, -, hexec⟩ := exec_encodeFile_closes hphase hmode hok hio
    have hwrite : (s.fileWritten h0 h1).bc.mode = .write := (putBits_frame _ _).mode
    have hsink := closeSink_failed hwrite hclose
    rw [hexec, closeBody, execute_guarded (by decide : Phase.encEnd ∈ _) (by simp [hwrite]),
      execute_bind_error hsink]
    simp only [State.fileWritten, flush_putBits_newWriter]
    exact ⟨_, rfl, rfl, rfl, rfl, rfl, rfl, rfl⟩

end Sys2Proof.Machine
end

section
/-!
DECODE_FILE (44_container.md R257) reads what ENCODE_FILE writes (43_block_codec.md R236).
-/

namespace Sys2Proof.Machine

open Sys2Proof.Claims

/-! ### The decoder's header -/

section DecodedForm
variable {h : Header}

/-- A block does not depend on the static divisor but by the divisors it is given. -/
theorem blockBits_decodedForm (h : Header) (m0 m1 : Nat) (x0 x1 : List Int) :
    (decodedForm h).blockBits m0 m1 x0 x1 = h.blockBits m0 m1 x0 x1 := by
  unfold decodedForm
  split <;> rfl

theorem channelSamples_decodedForm (h : Header) (pcm : List Sample) (f0 len : Nat) :
    (decodedForm h).channelSamples pcm f0 len = h.channelSamples pcm f0 len := by
  unfold decodedForm
  split <;> rfl

theorem blockLen_decodedForm (h : Header) (f0 : Nat) : (decodedForm h).blockLen f0 = h.blockLen f0 := by
  unfold decodedForm
  split <;> rfl

/-- A legal static divisor is a positive number below 2^31 (30_encoding.md R89). -/
theorem staticM_range (hlegal : h.Legal) (hstatic : h.dynamic = 0) :
    1 ≤ h.staticM.toNat ∧ h.staticM.toNat ≤ 2147483647 := by
  obtain ⟨-, -, -, -, hm⟩ := hlegal
  have hpos := hm hstatic
  rw [int32, BitVec.toInt_eq_toNat_cond] at hpos
  split at hpos <;> omega

/-- The divisors the encoder chooses are legal (43_block_codec.md R217, R230). -/
theorem encodeDivisor_divisorsOk (hlegal : h.Legal) (w : Nat) (x0 x1 : List Int) :
    DivisorsOk (decodedForm h) (h.encodeDivisor w x0) (h.encodeDivisor w x1) := by
  obtain ⟨-, -, -, -, hdynamic⟩ := decodedForm_checks h
  rcases BitVec.eq_zero_or_eq_one h.dynamic with hd | hd
  · have hchosen : ∀ xs, h.encodeDivisor w xs = h.staticM.toNat := fun xs => if_neg (by simp [hd])
    obtain ⟨hpos, hle⟩ := staticM_range hlegal hd
    rw [hchosen, hchosen, decodedForm_of_static hd]
    exact ⟨hpos, hle, hpos, hle, fun _ => ⟨rfl, rfl⟩⟩
  · have hchosen : ∀ xs, 1 ≤ h.encodeDivisor w xs ∧ h.encodeDivisor w xs ≤ 2147483647 := fun xs => by
      obtain ⟨hpos, hle⟩ := estimate_range (residualSum h.order.toNat w xs) (xs.length - w)
      rw [Header.encodeDivisor, if_pos (show h.dynamic = 1 from hd)]
      omega
    exact ⟨(hchosen _).1, (hchosen _).2, (hchosen _).1, (hchosen _).2, fun hstatic => by
      simp [hdynamic, hd] at hstatic⟩

end DecodedForm

/-! ### The blocks -/

/-- The encoder's next block is read back (43_block_codec.md R236). -/
theorem decodeNextBody_encoded {s : State} {h : Header} {pcm : List Sample} (hhdr : s.hdr = decodedForm h)
    (hlegal : h.Legal) (hlt : s.framesDone < h.totalFrames.toNat) (hsync : s.bc.Synced)
    (hlength : pcm.length = h.channels.toNat * h.totalFrames.toNat)
    (hnext : h.encodedBlockBits pcm s.framesDone <+: s.bc.unread) :
    decodeNextBody s = .ok () { s with
      bc := s.bc.advance (h.encodedBlockBits pcm s.framesDone).length
      pcmOut := s.pcmOut ++ (pcm.drop (h.channels.toNat * s.framesDone)).take
        (h.channels.toNat * h.blockLen s.framesDone)
      hist0 := s.hist0 ++ (h.channelSamples pcm s.framesDone (h.blockLen s.framesDone)).1
      hist1 := s.hist1 ++ (h.channelSamples pcm s.framesDone (h.blockLen s.framesDone)).2
      framesDone := s.framesDone + h.blockLen s.framesDone
      phase := if s.framesDone + h.blockLen s.framesDone = h.totalFrames.toNat then .decEnd
        else s.phase } := by
  have hform := decodedForm_legal hlegal
  have hcount : s.hdr.channelCount = h.channels.toNat := by
    rw [hhdr, channelCount_eq hform, (decodedForm_checks h).2.1]
  have hlen : s.hdr.blockLen s.framesDone = h.blockLen s.framesDone := by
    rw [hhdr, blockLen_decodedForm]
  have hsamples : s.hdr.channelSamples pcm s.framesDone (h.blockLen s.framesDone) =
      h.channelSamples pcm s.framesDone (h.blockLen s.framesDone) := by
    rw [hhdr, channelSamples_decodedForm]
  have hbits : ∀ m0 m1 x0 x1, s.hdr.blockBits m0 m1 x0 x1 = h.blockBits m0 m1 x0 x1 := by
    rw [hhdr]
    exact blockBits_decodedForm h
  have hframes : s.hdr.totalFrames = h.totalFrames := by rw [hhdr, decodedForm_totalFrames]
  have hdivisors := encodeDivisor_divisorsOk hlegal (h.warmup (h.blockLen s.framesDone))
    (h.channelSamples pcm s.framesDone (h.blockLen s.framesDone)).1
    (h.channelSamples pcm s.framesDone (h.blockLen s.framesDone)).2
  have hinside : h.channels.toNat * s.framesDone + h.channels.toNat * h.blockLen s.framesDone ≤ pcm.length := by
    rw [hlength, ← Nat.mul_add]
    have := blockLen_le h s.framesDone
    exact Nat.mul_le_mul_left _ (by omega)
  rw [← hhdr] at hdivisors
  have hbody := decodeNextBody_block (s := s) (pcm := pcm) (f0 := s.framesDone) (hhdr ▸ hform) hdivisors
    (by rwa [hcount, hlen]) (by rwa [hlen, hsamples, hbits])
  rwa [hcount, hlen, hsamples, hbits, hframes, hsync.consumed_eq] at hbody

/-- The blocks that are left are read back (44_container.md R257). -/
theorem decodeBlocks_ok {h : Header} {pcm : List Sample} (hlegal : h.Legal)
    (hlength : pcm.length = h.channels.toNat * h.totalFrames.toNat) (fuel : Nat) : ∀ s : State,
    s.hdr = decodedForm h → s.InRun .decBlocks .decEnd → s.bc.Synced →
    h.totalFrames.toNat - s.framesDone ≤ fuel →
    h.blocksFrom pcm fuel s.framesDone <+: s.bc.unread →
    ∃ h0 h1 : List Int, h0.length = h.totalFrames.toNat - s.framesDone ∧
      whilePhase .decBlocks decodeNextBody fuel s = .ok () { s with
        bc := s.bc.advance (h.blocksFrom pcm fuel s.framesDone).length
        pcmOut := s.pcmOut ++ pcm.drop (h.channels.toNat * s.framesDone)
        hist0 := s.hist0 ++ h0, hist1 := s.hist1 ++ h1
        framesDone := h.totalFrames.toNat, phase := .decEnd } := by
  have hdone : ∀ s : State, s.bc.Synced → s.framesDone = h.totalFrames.toNat → s.phase = .decEnd →
      s = { s with
        bc := s.bc.advance 0, pcmOut := s.pcmOut ++ pcm.drop (h.channels.toNat * s.framesDone)
        hist0 := s.hist0 ++ [], hist1 := s.hist1 ++ [], framesDone := h.totalFrames.toNat
        phase := .decEnd } := by
    intro s hsync hend hphase
    rw [List.drop_of_length_le (by rw [hlength, hend]), List.append_nil, List.append_nil, List.append_nil,
      hsync.advance_zero, ← hend, ← hphase]
  induction fuel with
  | zero =>
    rintro s hhdr ⟨hle, hphase⟩ hsync hfuel -
    rw [hhdr, decodedForm_totalFrames] at hle hphase
    have hend : s.framesDone = h.totalFrames.toNat := by omega
    rw [if_pos hend] at hphase
    exact ⟨[], [], by simp [hend], congrArg _ (hdone s hsync hend hphase)⟩
  | succ fuel ih =>
    rintro s hhdr ⟨hle, hphase⟩ hsync hfuel hnext
    rw [hhdr, decodedForm_totalFrames] at hle hphase
    by_cases hend : s.framesDone = h.totalFrames.toNat
    · rw [if_pos hend] at hphase
      refine ⟨[], [], by simp [hend], ?_⟩
      rw [whilePhase_of_ne (by rw [hphase]; decide), blocksFrom_end hend.ge]
      exact congrArg _ (hdone s hsync hend hphase)
    · rw [if_neg hend] at hphase
      have hlt : s.framesDone < h.totalFrames.toNat := by omega
      obtain ⟨hsize, -⟩ := id hlegal
      have hlen := blockLen_pos hsize hlt
      have hblock := blockLen_le h s.framesDone
      rw [blocksFrom_next hlt] at hnext ⊢
      obtain ⟨t, ht, hbody⟩ : ∃ t, t = _ ∧ decodeNextBody s = .ok () t :=
        ⟨_, rfl, decodeNextBody_encoded hhdr hlegal hlt hsync hlength ((List.prefix_append _ _).trans hnext)⟩
      have hrest := prefix_drop_of_append_prefix hnext
      rw [← unread_advance] at hrest
      obtain ⟨h0, h1, hlength', hrun⟩ := ih t (by rwa [ht])
        ⟨by rw [ht]; simp only [hhdr, decodedForm_totalFrames]; omega,
          by rw [ht]; simp only [hhdr, decodedForm_totalFrames, hphase]⟩
        (by rw [ht]; exact s.bc.advance_synced _) (by rw [ht]; simp only; omega) (by rwa [ht])
      rw [whilePhase_of_eq hphase hbody, hrun, ht]
      refine ⟨(h.channelSamples pcm s.framesDone (h.blockLen s.framesDone)).1 ++ h0,
        (h.channelSamples pcm s.framesDone (h.blockLen s.framesDone)).2 ++ h1, ?_, ?_⟩
      · rw [List.length_append, channelSamples_length0, hlength', ht]
        simp only
        omega
      · simp only [List.append_assoc, BitChannel.advance_advance, List.length_append, Nat.mul_add,
          ← List.drop_drop, List.take_append_drop]

/-! ### DECODE_FILE -/

/-- A new reader, in the state BC_OPEN_READ leaves (40_bitchannel.md R123). -/
def BitChannel.newReader (b : BitChannel) : BitChannel := { b with rdpos := 0, count := 0, mode := .read }

theorem BitChannel.newReader_unread (b : BitChannel) : b.newReader.unread = streamOf b.byteIn := rfl

/-- The state in which the header has been read and the blocks begin (44_container.md R257). -/
def State.headerRead (s : State) (h : Header) : State :=
  { s.afterDraw.startRun (decodedForm h) .decBlocks .decEnd with
    cfg := decodedForm h, pcmOut := [], bc := s.bc.newReader.advance h.bits.length }

/-- Settles O52: the header and every block are read back, and the close keeps what they gave. -/
theorem decodeFileReadsTheStream : Obligations.DecodeFileReadsTheStream := by
  intro s h pcm extra hphase hmode hio hlegal hlength hbyteIn
  have hstream : h.bits ++ h.blocksFrom pcm h.totalFrames.toNat 0 <+: s.bc.newReader.unread := by
    rw [BitChannel.newReader_unread, hbyteIn]
    exact prefix_streamOf_packBits _ extra
  have hopen : openReadBody s = .ok () { s.afterDraw with bc := s.bc.newReader } := openReadBody_ok hio
  have hheader : headerReadBody { s.afterDraw with bc := s.bc.newReader } = .ok () (s.headerRead h) :=
    headerReadBody_ok hlegal ((List.prefix_append _ _).trans hstream)
  have hrest := prefix_drop_of_append_prefix hstream
  rw [← unread_advance] at hrest
  obtain ⟨h0, h1, hlength', hblocks⟩ := decodeBlocks_ok hlegal hlength h.totalFrames.toNat (s.headerRead h)
    rfl (s.afterDraw.startRun_inRun (decodedForm h) .decBlocks .decEnd) (s.bc.newReader.advance_synced _)
    le_rfl hrest
  have hall : allBlocks .decBlocks decodeNextBody (s.headerRead h) =
      whilePhase .decBlocks decodeNextBody h.totalFrames.toNat (s.headerRead h) := by
    rw [allBlocks_apply, State.headerRead, State.startRun, decodedForm_totalFrames]
  refine ⟨h0, h1, hlength', ?_⟩
  refine (execute_guarded (by simpa using hphase) (by simpa using hmode)).trans ?_
  rw [execute_bind_ok hopen, execute_bind_ok hheader, execute_bind_ok (hall.trans hblocks), closeBody,
    execute_guarded (by decide : Phase.decEnd ∈ _) (by decide : BcMode.read ∈ _),
    execute_bind_ok (closeSink_reader rfl), execute_change, Header.fileBits, List.length_append]
  simp only [State.headerRead, State.startRun, State.succeed, BitChannel.advance_advance]
  simp [BitChannel.advance, BitChannel.newReader]

/-- Settles O53: the stream that ENCODE_FILE leaves is one that DECODE_FILE reads back. -/
theorem fileRoundTripIsLossless : Obligations.FileRoundTripIsLossless := by
  intro s t u hphase hmode hok hio hclose hencode hphase' hmode' hio' hbyteIn
  obtain ⟨_, _, _, hwritten⟩ := encodeFileWritesTheStream s hphase hmode hok hio hclose
  cases hencode.symm.trans hwritten
  obtain ⟨hlegal, hlength⟩ := hok
  obtain ⟨_, _, _, hread⟩ := decodeFileReadsTheStream u s.cfg s.pcmIn [] hphase' hmode' hio' hlegal hlength
    (hbyteIn.trans (List.append_nil _).symm)
  exact ⟨_, hread, rfl, rfl, rfl, rfl⟩

end Sys2Proof.Machine
end

section
/-!
The guards of every command (60_exceptions.md R308), the block commands and CFG (10_state.md R46), and the
reset state.
-/

namespace Sys2Proof.Machine

open Sys2Proof.Claims

/-! ### Guards -/

theorem mem_allPhases (p : Phase) : p ∈ [Phase.idle, .encBlocks, .encEnd, .decBlocks, .decEnd] := by
  cases p <;> decide

theorem mem_allModes (m : BcMode) : m ∈ [BcMode.idle, .write, .read, .closed] := by
  cases m <;> decide

/-- A command without guards is one whose guards always pass. -/
theorem execute_unguarded (body : Cmd Unit) (s : State) :
    execute body s = execute (do
      needPhase [.idle, .encBlocks, .encEnd, .decBlocks, .decEnd]
      needMode [.idle, .write, .read, .closed]
      body) s :=
  (execute_guarded (mem_allPhases _) (mem_allModes _)).symm

/-- With `N` in its range every command is its two guards and what follows them (60_exceptions.md
R308). -/
theorem exec_eq_guarded (i : Instr) : ∃ body : Cmd Unit, ∀ s, rangeOk i = true →
    exec i s = execute (do needPhase (legalPhases i); needMode (legalModes i); body) s := by
  cases i
  case nop | softReset | grConfig | sdToMs | sdToLr | blkEstimate =>
    exact ⟨_, fun s _ => execute_unguarded _ s⟩
  case lpPredict n =>
    exact ⟨_, fun s hn => (execute_checkPasses (Nat.not_lt.mpr (of_decide_eq_true hn))).trans
      (execute_unguarded _ s)⟩
  case bcWriteBits n | bcReadBits n =>
    exact ⟨_, fun s hn => execute_checkPasses (not_gt_maxBitCount (by simpa [rangeOk] using hn))⟩
  case grEncU | grDecU | grEncS | grDecS =>
    exact ⟨_, fun s _ => congrArg (execute · s) (needCoder_bind _ _)⟩
  all_goals exact ⟨_, fun s _ => rfl⟩

/-- Settles O18: the range of `N` is checked before the guards, which every command has. -/
theorem guardsRaiseInOrder : Obligations.GuardsRaiseInOrder := by
  refine ⟨fun i s hrange => ?_, fun i s hrange hphase => ?_, fun i s hrange hphase hmode => ?_⟩
  · cases i
    case bcWriteBits n | bcReadBits n | lpPredict n =>
      exact execute_checkFails (Nat.lt_of_not_le (of_decide_eq_false hrange))
    all_goals cases hrange
  · obtain ⟨body, hexec⟩ := exec_eq_guarded i
    rw [hexec s hrange]
    exact execute_wrongPhase hphase
  · obtain ⟨body, hexec⟩ := exec_eq_guarded i
    rw [hexec s hrange]
    exact execute_wrongMode hphase hmode

/-! ### CFG during a run -/

/-- The body gives the same result whatever CFG holds, with that CFG kept. -/
def IgnoresCfg (body : Cmd Unit) : Prop :=
  ∀ (c : Header) (s : State), settle (body { s with cfg := c }) = { settle (body s) with cfg := c }

theorem IgnoresCfg.guarded {body : Cmd Unit} (hbody : IgnoresCfg body) (ps : List Phase) (ms : List BcMode) :
    IgnoresCfg (do needPhase ps; needMode ms; body) := by
  intro c s
  by_cases hphase : s.phase ∈ ps
  · rw [bind_of_ok (needPhase_ok hphase), bind_of_ok (needPhase_ok (s := { s with cfg := c }) hphase)]
    by_cases hmode : s.bc.mode ∈ ms
    · rw [bind_of_ok (needMode_ok hmode), bind_of_ok (needMode_ok (s := { s with cfg := c }) hmode)]
      exact hbody c s
    · rw [bind_of_error (needMode_error hmode),
        bind_of_error (needMode_error (s := { s with cfg := c }) hmode)]
      rfl
  · rw [bind_of_error (needPhase_error hphase),
      bind_of_error (needPhase_error (s := { s with cfg := c }) hphase)]
    rfl

theorem State.endRun_cfg (p : Phase) (c : Header) (s : State) :
    { s with cfg := c }.endRun p = { s.endRun p with cfg := c } := by
  rw [State.endRun_eq, State.endRun_eq]

theorem encodeNextBody_ignoresCfg : IgnoresCfg encodeNextBody := by
  intro c s
  rw [encodeNextBody, change_apply, change_apply]
  exact congrArg State.succeed (State.endRun_cfg .encEnd c s.encodeBlock)

/-- The reader works on the BitChannel with the latched header (43_block_codec.md R234). -/
theorem decodeNextBody_ignoresCfg : IgnoresCfg decodeNextBody := by
  intro c s
  cases hread : structural (readBlock s.hdr (s.hdr.blockLen s.framesDone)) s.bc with
  | ok x b =>
    have hbody : ∀ c, decodeNextBody { s with cfg := c } =
        .ok () (({ s with cfg := c, bc := b }.appendBlock x).endRun .decEnd) := fun c => by
      rw [decodeNextBody, bind_of_ok (get_apply _), bind_of_ok (onChannel_ok (s := { s with cfg := c }) hread)]
      rfl
    rw [hbody c, hbody s.cfg]
    exact congrArg State.succeed (State.endRun_cfg .decEnd c ({ s with bc := b }.appendBlock x))
  | error e b =>
    have hbody : ∀ c, decodeNextBody { s with cfg := c } = .error e { s with cfg := c, bc := b } := fun c => by
      rw [decodeNextBody, bind_of_ok (get_apply _),
        bind_of_error (onChannel_error (s := { s with cfg := c }) hread)]
    rw [hbody c, hbody s.cfg]
    rfl

/-- Settles O59: neither body reads CFG. -/
theorem blockCommandsIgnoreTheConfiguration : Obligations.BlockCommandsIgnoreTheConfiguration := by
  intro i hi s t c hexec
  have hignores : ∃ body, IgnoresCfg body ∧ ∀ s, exec i s = execute body s := by
    simp only [List.mem_cons, List.not_mem_nil, or_false] at hi
    rcases hi with rfl | rfl
    · exact ⟨_, encodeNextBody_ignoresCfg.guarded _ _, fun _ => rfl⟩
    · exact ⟨_, decodeNextBody_ignoresCfg.guarded _ _, fun _ => rfl⟩
  obtain ⟨body, hbody, hrun⟩ := hignores
  rw [hrun] at hexec ⊢
  rw [execute_next hexec, execute, hbody c s]

/-! ### Reset -/

/-- Settles O54: each part of the invariant is decided on the reset state. -/
theorem resetMeetsTheInvariant : Obligations.ResetMeetsTheInvariant :=
  ⟨by decide, by decide, by decide⟩

end Sys2Proof.Machine
end

section
/-!
What a command can do: a few state changes, each under the condition its rule gives it. Every command is
a run of the changes listed for it; what a command keeps is then read off the changes.
-/

namespace Sys2Proof.Machine

open Sys2Proof.Claims

/-! ### The changes -/

/-- The state changes that commands are made of. -/
inductive Act where
  | draw | results | construct | write | read | openWriter | openReader | flush | closeWriter
  | closeReader | startEncode | startDecode | encodeBlock | decodeBlock | reset
  deriving DecidableEq

/-- A reader has moved: its cursor has not gone back, nor past the end, and BC_BYTE_COUNT follows it
(40_bitchannel.md R127, R134). -/
structure Advances (b c : BitChannel) : Prop where
  frame : ReaderFrame b c
  synced : b.Synced → c.Synced
  inside : b.rdpos ≤ 8 * b.byteIn.length → c.rdpos ≤ 8 * c.byteIn.length

theorem Moves.advances {b c : BitChannel} (h : Moves b c) : Advances b c := by
  refine ⟨h.frame, h.synced, ?_⟩
  obtain ⟨k, rfl, hk⟩ := h
  intro hinside
  rw [consumed_rdpos, consumed_byteIn]
  rcases Nat.eq_zero_or_pos k with rfl | hpos
  · exact hinside
  · exact hk hpos.ne'

/-- A read of no bits writes BC_BYTE_COUNT too (40_bitchannel.md R127). -/
theorem readBits_advances (n : Nat) : Relates Advances (readBits n) := by
  intro b
  rcases readBits_cases n b with ⟨_, h⟩ | ⟨henough, h⟩ <;> rw [h]
  · exact (Moves.refl b).advances
  · refine ⟨⟨rfl, rfl, rfl, rfl, rfl, rfl, Nat.le_add_right _ _⟩, fun _ => b.advance_synced n,
      fun hinside => ?_⟩
    rw [BitChannel.remaining] at henough
    simp only [endState, BitChannel.advance_rdpos, BitChannel.advance_byteIn]
    omega

/-- What each change does, and when it is made. -/
inductive Acts : Act → State → State → Prop
  | draw (s : State) : Acts .draw s s.afterDraw
  | results (s : State) (r0 r1 : Word) : Acts .results s { s with res0 := r0, res1 := r1 }
  | construct (s : State) (scheme : Scheme) (hm : 0 < s.configM) :
      Acts .construct s { s with grM := s.arg0, grNeg := scheme }
  | write (s : State) (bits : List Bool) (hmode : s.bc.mode = .write) :
      Acts .write s { s with bc := s.bc.putBits bits }
  | read (s : State) (b : BitChannel) (hmode : s.bc.mode = .read) (hb : Advances s.bc b) :
      Acts .read s { s with bc := b }
  | openWriter (s : State) (hphase : s.phase = .idle) :
      Acts .openWriter s { s with bc := s.bc.newWriter }
  | openReader (s : State) (hphase : s.phase = .idle) :
      Acts .openReader s { s with bc := s.bc.newReader }
  | flush (s : State) (hmode : s.bc.mode = .write) : Acts .flush s { s with bc := s.bc.flush }
  | closeWriter (s : State) :
      Acts .closeWriter s { s with bc := { s.bc with durable := true, mode := .closed }, phase := .idle }
  | closeReader (s : State) :
      Acts .closeReader s { s with bc := { s.bc with mode := .closed }, phase := .idle }
  | startEncode (s : State) (hmode : s.bc.mode = .write) (hok : ConfigOk s) :
      Acts .startEncode s
        { s.startRun s.cfg .encBlocks .encEnd with bc := s.bc.putBits s.cfg.bits }
  | startDecode (s : State) (h : Header) (hmode : s.bc.mode = .read) (hlegal : h.Legal) :
      Acts .startDecode s { s.startRun h .decBlocks .decEnd with cfg := h, pcmOut := [] }
  | encodeBlock (s : State) (hphase : s.phase = .encBlocks) (hmode : s.bc.mode = .write) :
      Acts .encodeBlock s { s.encodeBlock with
        phase := if s.encodeBlock.framesDone = s.hdr.totalFrames.toNat then .encEnd else s.phase }
  | decodeBlock (s : State) (x : List Int × List Int) (hphase : s.phase = .decBlocks)
      (h0 : x.1.length = s.hdr.blockLen s.framesDone)
      (h1 : s.hdr.stereo = true → x.2.length = s.hdr.blockLen s.framesDone) :
      Acts .decodeBlock s { s.appendBlock x with
        phase := if (s.appendBlock x).framesDone = s.hdr.totalFrames.toNat then .decEnd else s.phase }
  | reset (s : State) : Acts .reset s s.coreReset

/-- A run of changes from the list. -/
def Run (A : List Act) : State → State → Prop :=
  Relation.ReflTransGen fun s t => ∃ a ∈ A, Acts a s t

theorem Run.refl {A : List Act} (s : State) : Run A s s := Relation.ReflTransGen.refl

theorem Run.single {A : List Act} {a : Act} {s t : State} (ha : a ∈ A) (h : Acts a s t) : Run A s t :=
  Relation.ReflTransGen.single ⟨a, ha, h⟩

/-- A relation that holds of each change of the list, and composes, holds of a run of them. -/
theorem Run.rel {A : List Act} {R : State → State → Prop} (refl : ∀ s, R s s)
    (trans : ∀ s t u, R s t → R t u → R s u) (hacts : ∀ a ∈ A, ∀ s t, Acts a s t → R s t) {s t : State}
    (h : Run A s t) : R s t := by
  induction h with
  | refl => exact refl s
  | tail _ hact ih =>
    obtain ⟨a, ha, hact⟩ := hact
    exact trans _ _ _ ih (hacts a ha _ _ hact)

/-- The changes that each command is made of. -/
def actsOf : Instr → List Act
  | .nop => []
  | .softReset => [.reset]
  | .bcOpenWrite => [.draw, .openWriter]
  | .bcOpenRead => [.draw, .openReader]
  | .bcWriteBits _ | .bcWriteBit | .grEncU | .grEncS => [.write]
  | .bcReadBits _ | .bcReadBit | .grDecU | .grDecS => [.read, .results]
  | .bcClose => [.flush, .draw, .closeWriter, .closeReader]
  | .grConfig => [.construct]
  | .lpPredict _ | .sdToMs | .sdToLr | .blkEstimate => [.results]
  | .blkEncodeNext => [.encodeBlock]
  | .blkDecodeNext => [.read, .decodeBlock]
  | .hdrWrite => [.startEncode]
  | .hdrRead => [.read, .startDecode]
  | .encodeFile => [.draw, .openWriter, .startEncode, .encodeBlock, .flush, .closeWriter]
  | .decodeFile => [.draw, .openReader, .read, .startDecode, .decodeBlock, .closeReader]

/-! ### How a computation makes them -/

/-- From a state with `P`, `c` makes only changes of the list, raises only errors of the list, and leaves
`Q` when it succeeds. -/
structure Performs {α : Type} (P : State → Prop) (A : List Act) (es : List Raise) (c : Cmd α)
    (Q : α → State → Prop) : Prop where
  ok : ∀ s a t, P s → c s = .ok a t → Run A s t ∧ Q a t
  error : ∀ s e t, P s → c s = .error e t → Run A s t ∧ e ∈ es

namespace Performs

variable {α β : Type} {P P' : State → Prop} {A : List Act} {es : List Raise} {Q : α → State → Prop}

theorem pre {c : Cmd α} (h : Performs P A es c Q) (hP : ∀ s, P' s → P s) : Performs P' A es c Q :=
  ⟨fun s a t hs => h.ok s a t (hP s hs), fun s e t hs => h.error s e t (hP s hs)⟩

theorem post {c : Cmd α} {Q' : α → State → Prop} (h : Performs P A es c Q) (hQ : ∀ a s, Q a s → Q' a s) :
    Performs P A es c Q' :=
  ⟨fun s a t hs hc => ⟨(h.ok s a t hs hc).1, hQ a t (h.ok s a t hs hc).2⟩, h.error⟩

theorem forget {c : Cmd α} (h : Performs P A es c Q) : Performs P A es c fun _ _ => True :=
  h.post fun _ _ _ => trivial

theorem bind {x : Cmd α} {k : α → Cmd β} {R : β → State → Prop} (hx : Performs P A es x Q)
    (hk : ∀ a, Performs (Q a) A es (k a) R) : Performs P A es (x >>= k) R := by
  constructor
  · intro s b u hs hc
    cases hrun : x s with
    | ok a t =>
      obtain ⟨hst, hQ⟩ := hx.ok s a t hs hrun
      obtain ⟨htu, hR⟩ := (hk a).ok t b u hQ ((bind_of_ok hrun).symm.trans hc)
      exact ⟨hst.trans htu, hR⟩
    | error e t => cases (bind_of_error hrun).symm.trans hc
  · intro s e u hs hc
    cases hrun : x s with
    | ok a t =>
      obtain ⟨hst, hQ⟩ := hx.ok s a t hs hrun
      obtain ⟨htu, he⟩ := (hk a).error t e u hQ ((bind_of_ok hrun).symm.trans hc)
      exact ⟨hst.trans htu, he⟩
    | error e' t =>
      cases (bind_of_error hrun).symm.trans hc
      exact hx.error _ _ _ hs hrun

theorem pure {a : α} (hQ : ∀ s, P s → Q a s) : Performs P A es (Pure.pure a) Q := by
  constructor
  · intro s b t hs hc
    cases hc
    exact ⟨.refl s, hQ s hs⟩
  · intro s e t hs hc
    cases hc

/-- What follows a look at the state may use that it is the state. -/
theorem get {k : State → Cmd α} (hk : ∀ s, P s → Performs (· = s) A es (k s) Q) :
    Performs P A es (MonadState.get >>= k) Q :=
  ⟨fun s a t hs hc => (hk s hs).ok s a t rfl hc, fun s e t hs hc => (hk s hs).error s e t rfl hc⟩

/-- One change of the list. -/
theorem change {f : State → State} {a : Act} {Q : Unit → State → Prop} (ha : a ∈ A)
    (hf : ∀ s, P s → Acts a s (f s)) (hQ : ∀ s, P s → Q () (f s)) :
    Performs P A es (Machine.change f) Q := by
  constructor
  · intro s u t hs hc
    cases hc
    exact ⟨.single ha (hf s hs), hQ s hs⟩
  · intro s e t hs hc
    cases hc

theorem drawIo (ha : .draw ∈ A) (hP : ∀ s, P s → P s.afterDraw) :
    Performs P A es Machine.drawIo fun _ => P := by
  constructor
  · intro s a t hs hc
    cases hc
    exact ⟨.single ha (.draw s), hP s hs⟩
  · intro s e t hs hc
    cases hc

theorem raiseIf {e : Raise} (he : e ∈ es) (c : Prop) [Decidable c] :
    Performs P A es (Machine.raiseIf c e) fun _ s => P s ∧ ¬ c := by
  constructor
  · intro s a t hs hc
    rcases raiseIf_cases c e s with ⟨_, h⟩ | ⟨hpass, h⟩ <;> cases h.symm.trans hc
    exact ⟨.refl s, hs, hpass⟩
  · intro s e' t hs hc
    rcases raiseIf_cases c e s with ⟨_, h⟩ | ⟨_, h⟩ <;> cases h.symm.trans hc
    exact ⟨.refl s, he⟩

theorem needPhase (he : .wrongPhase ∈ es) (ps : List Phase) :
    Performs P A es (Machine.needPhase ps) fun _ s => P s ∧ s.phase ∈ ps := by
  constructor <;> intro s a t hs hc <;> by_cases hphase : s.phase ∈ ps
  · cases (needPhase_ok hphase).symm.trans hc
    exact ⟨.refl s, hs, hphase⟩
  · cases (needPhase_error hphase).symm.trans hc
  · cases (needPhase_ok hphase).symm.trans hc
  · cases (needPhase_error hphase).symm.trans hc
    exact ⟨.refl s, he⟩

theorem needMode (he : .wrongBcMode ∈ es) (ms : List BcMode) :
    Performs P A es (Machine.needMode ms) fun _ s => P s ∧ s.bc.mode ∈ ms := by
  constructor <;> intro s a t hs hc <;> by_cases hmode : s.bc.mode ∈ ms
  · cases (needMode_ok hmode).symm.trans hc
    exact ⟨.refl s, hs, hmode⟩
  · cases (needMode_error hmode).symm.trans hc
  · cases (needMode_ok hmode).symm.trans hc
  · cases (needMode_error hmode).symm.trans hc
    exact ⟨.refl s, he⟩

/-- The two guards of a command (60_exceptions.md R308). -/
theorem guarded {body : Cmd α} {p : Phase} {m : BcMode} (hphase : .wrongPhase ∈ es) (hmode : .wrongBcMode ∈ es)
    (hbody : Performs (fun s => s.phase = p ∧ s.bc.mode = m) A es body Q) :
    Performs (fun _ => True) A es (do Machine.needPhase [p]; Machine.needMode [m]; body) Q :=
  .bind (.needPhase hphase [p]) fun _ => .bind (.needMode hmode [m]) fun _ =>
    hbody.pre fun _ ⟨⟨_, hp⟩, hm⟩ => ⟨List.mem_singleton.mp hp, List.mem_singleton.mp hm⟩

/-- The guards of a command that opens a BitChannel (40_bitchannel.md R120). -/
theorem opening {body : Cmd α} (hphase : .wrongPhase ∈ es) (hmode : .wrongBcMode ∈ es)
    (hbody : Performs (fun s => s.phase = .idle) A es body Q) :
    Performs (fun _ => True) A es
      (do Machine.needPhase [.idle]; Machine.needMode [.idle, .closed]; body) Q :=
  .bind (.needPhase hphase _) fun _ => .bind (.needMode hmode _) fun _ =>
    hbody.pre fun _ ⟨⟨_, hp⟩, _⟩ => List.mem_singleton.mp hp

/-- A read, which moves the reader and raises its own errors. -/
theorem onChannel {r : Reader α} {es' : List Raise} (hread : .read ∈ A) (hmoves : Relates Advances r)
    (hraises : RaisesOnly es' r) (hes : es' ⊆ es) (hmode : ∀ s, P s → s.bc.mode = .read)
    (hQ : ∀ s a b, P s → b.mode = .read → r s.bc = .ok a b → Q a { s with bc := b }) :
    Performs P A es (Machine.onChannel r) Q := by
  constructor
  · intro s a t hs hc
    cases hr : r s.bc with
    | ok a' b =>
      cases (onChannel_ok hr).symm.trans hc
      have hb := hmoves s.bc
      rw [hr] at hb
      exact ⟨.single hread (.read s b (hmode s hs) hb), hQ s a b hs (hb.frame.mode.trans (hmode s hs)) hr⟩
    | error e b => cases (onChannel_error hr).symm.trans hc
  · intro s e t hs hc
    cases hr : r s.bc with
    | ok a b => cases (onChannel_ok hr).symm.trans hc
    | error e' b =>
      cases (onChannel_error hr).symm.trans hc
      have hb := hmoves s.bc
      rw [hr] at hb
      exact ⟨.single hread (.read s b (hmode s hs) hb), hes (hraises _ _ _ hr)⟩

theorem whilePhase {p : Phase} {body : Cmd Unit}
    (hbody : Performs (fun s => P s ∧ s.phase = p) A es body fun _ => P) :
    ∀ fuel, Performs P A es (Machine.whilePhase p body fuel) fun _ => P := by
  intro fuel
  induction fuel with
  | zero => exact .pure fun _ hs => hs
  | succ fuel ih =>
    refine .get fun s hs => ?_
    split
    next hphase => exact (Performs.bind hbody fun _ => ih).pre fun t ht => ht ▸ ⟨hs, hphase⟩
    next => exact .pure fun t ht => ht ▸ hs

theorem allBlocks {p : Phase} {body : Cmd Unit}
    (hbody : Performs (fun s => P s ∧ s.phase = p) A es body fun _ => P) :
    Performs P A es (Machine.allBlocks p body) fun _ => P :=
  .get fun _ hs => (whilePhase hbody _).pre fun _ ht => ht ▸ hs

end Performs

end Sys2Proof.Machine
end

section
/-!
Every command is a run of its changes and raises only the errors of its row (60_exceptions.md R307).
-/

namespace Sys2Proof.Machine

open Sys2Proof.Claims

/-! ### What a successful read says of its result -/

/-- A successful sequence is two successful parts. -/
theorem ok_of_bind {σ α β : Type} {x : EStateM Raise σ α} {k : α → EStateM Raise σ β} {s u : σ} {b : β}
    (h : (x >>= k) s = .ok b u) : ∃ a t, x s = .ok a t ∧ k a t = .ok b u := by
  cases hx : x s with
  | ok a t => exact ⟨a, t, rfl, (bind_of_ok hx).symm.trans h⟩
  | error e t => cases (bind_of_error hx).symm.trans h

theorem raiseIf_ok {σ : Type} {c : Prop} [Decidable c] {e : Raise} {s t : σ}
    (h : (raiseIf c e : EStateM Raise σ Unit) s = .ok () t) : ¬ c := by
  rcases raiseIf_cases c e s with ⟨_, hr⟩ | ⟨hpass, _⟩
  · cases hr.symm.trans h
  · exact hpass

/-- A channel has the samples it was asked for (43_block_codec.md R231). -/
theorem readChannel_ok_length {m order w : Nat} {scheme : Scheme} {lo hi : Int} {n i : Nat} {prev xs : List Int}
    {b c : BitChannel} (h : readChannel m scheme order w lo hi n i prev b = .ok xs c) :
    xs.length = prev.length + n := by
  induction n generalizing i prev b with
  | zero =>
    cases h
    simp
  | succ n ih =>
    obtain ⟨d, _, _, h⟩ := ok_of_bind h
    obtain ⟨_, _, _, h⟩ := ok_of_bind h
    rw [ih h, List.length_cons]
    omega

/-- A block has the frames it was asked for, on each channel (43_block_codec.md R230 to R233). -/
theorem readBlock_ok_length {h : Header} {len : Nat} {x : List Int × List Int} {b c : BitChannel}
    (hread : readBlock h len b = .ok x c) : x.1.length = len ∧ (h.stereo = true → x.2.length = len) := by
  cases hs : h.stereo with
  | false =>
    rw [readBlock_mono hs] at hread
    obtain ⟨_, _, _, hread⟩ := ok_of_bind hread
    obtain ⟨x0, _, hmid, hread⟩ := ok_of_bind hread
    cases hread
    exact ⟨(readChannel_ok_length hmid).trans (by simp), nofun⟩
  | true =>
    rw [readBlock_stereo hs] at hread
    obtain ⟨_, _, _, hread⟩ := ok_of_bind hread
    obtain ⟨x0, _, hmid, hread⟩ := ok_of_bind hread
    obtain ⟨x1, _, hside, hread⟩ := ok_of_bind hread
    obtain ⟨_, _, _, hread⟩ := ok_of_bind hread
    cases hread
    exact ⟨(readChannel_ok_length hmid).trans (by simp),
      fun _ => (readChannel_ok_length hside).trans (by simp)⟩

theorem structural_eq_ok {α : Type} {r : Reader α} {b c : BitChannel} {a : α}
    (h : structural r b = .ok a c) : r b = .ok a c := by
  cases hr : r b with
  | ok a' c' => exact (structural_ok hr).symm.trans h
  | error e c' => cases (structural_error hr).symm.trans h

/-- A header that passes its checks is legal (44_container.md R254). -/
theorem legal_of_validateHdr_ok {h : Header} {b c : BitChannel} (hok : validateHdr h b = .ok () c) :
    h.Legal := by
  obtain ⟨_, _, hfields, hstatic⟩ := ok_of_bind hok
  have hfields := raiseIf_ok hfields
  have hstatic := raiseIf_ok hstatic
  push Not at hfields hstatic
  obtain ⟨hsize, hchannels, horder, hneg⟩ := hfields
  exact ⟨hsize, or_iff_not_imp_left.mpr hchannels, horder, hneg, hstatic⟩

/-! ### Parts of commands -/

namespace Performs

variable {A : List Act} {es : List Raise}

/-- A command that writes bits (40_bitchannel.md R125). -/
theorem write {f : State → BitChannel} {p : Phase} (ha : .write ∈ A)
    (hf : ∀ s, ∃ bits, f s = s.bc.putBits bits) :
    Performs (fun s => s.phase = p ∧ s.bc.mode = .write) A es
      (Machine.change fun s => { s with bc := f s }) fun _ _ => True := by
  refine .change ha (fun s ⟨_, hmode⟩ => ?_) fun _ _ => trivial
  obtain ⟨bits, hbits⟩ := hf s
  rw [hbits]
  exact .write s bits hmode

/-- A command that reads a value into RES0 (10_state.md R30). -/
theorem readThenWrite {α : Type} {r : Reader α} {es' : List Raise} {p : Phase} (v : α → Word)
    (hread : .read ∈ A) (hresults : .results ∈ A) (hmoves : Relates Advances r) (hraises : RaisesOnly es' r)
    (hes : es' ⊆ es) :
    Performs (fun s => s.phase = p ∧ s.bc.mode = .read) A es
      (Machine.onChannel r >>= fun a => Machine.change fun s => { s with res0 := v a }) fun _ _ => True :=
  .bind (.onChannel (Q := fun _ _ => True) hread hmoves hraises hes (fun _ hs => hs.2)
      fun _ _ _ _ _ _ => trivial) fun a =>
    .change hresults (fun s _ => .results s (v a) s.res1) fun _ _ => trivial

/-- The guards of the coding commands (41_golomb.md R156). -/
theorem needCoder (m : BcMode) (hphase : .wrongPhase ∈ es) (hmode : .wrongBcMode ∈ es) (hm : .badM ∈ es) :
    Performs (fun _ => True) A es (Machine.needCoder m) fun _ s => s.phase = .idle ∧ s.bc.mode = m :=
  .guarded hphase hmode <| .get fun _ hs => (Performs.raiseIf hm _).pre (fun _ ht => ht ▸ hs) |>.post
    fun _ _ ht => ht.1

/-- The checks of the configuration (44_container.md R250). -/
theorem validateCfg {P : State → Prop}
    (hes : [.badBlockSize, .badChannels, .badOrder, .badNeg, .badM, .pcmLength] ⊆ es) :
    Performs P A es Machine.validateCfg fun _ s => P s ∧ ConfigOk s := by
  simp only [List.cons_subset, List.nil_subset, and_true] at hes
  obtain ⟨he1, he2, he3, he4, he5, he6⟩ := hes
  refine .get fun s hs => ?_
  refine Performs.post (.bind (.raiseIf he1 _) fun _ => .bind (.raiseIf he2 _) fun _ =>
    .bind (.raiseIf he3 _) fun _ => .bind (.raiseIf he4 _) fun _ => .bind (.raiseIf he5 _) fun _ =>
    .raiseIf he6 _) fun _ t ht => ?_
  obtain ⟨⟨⟨⟨⟨⟨rfl, hsize⟩, hchannels⟩, horder⟩, hneg⟩, hm⟩, hlength⟩ := ht
  push Not at hchannels horder hneg hm hlength
  exact ⟨hs, ⟨hsize, or_iff_not_imp_left.mpr hchannels, horder, hneg, hm⟩, hlength⟩

theorem openWriteBody (hdraw : .draw ∈ A) (hopen : .openWriter ∈ A) (he : .openFailed ∈ es) :
    Performs (fun s => s.phase = .idle) A es Machine.openWriteBody fun _ s => s.bc.mode = .write :=
  .bind (.drawIo hdraw fun _ hs => hs) fun _ => .bind (.raiseIf he _) fun _ =>
    .change hopen (fun s hs => .openWriter s hs.1) fun _ _ => rfl

theorem openReadBody (hdraw : .draw ∈ A) (hopen : .openReader ∈ A) (he : .openFailed ∈ es) :
    Performs (fun s => s.phase = .idle) A es Machine.openReadBody fun _ s => s.bc.mode = .read :=
  .bind (.drawIo hdraw fun _ hs => hs) fun _ => .bind (.raiseIf he _) fun _ =>
    .change hopen (fun s hs => .openReader s hs.1) fun _ _ => rfl

theorem headerWriteBody (hstart : .startEncode ∈ A)
    (hes : [.badBlockSize, .badChannels, .badOrder, .badNeg, .badM, .pcmLength] ⊆ es) :
    Performs (fun s => s.bc.mode = .write) A es Machine.headerWriteBody fun _ s => s.bc.mode = .write := by
  refine .bind (.validateCfg hes) fun _ => .change hstart (fun s hs => ?_) fun s hs => ?_
  · rw [writeHeader_eq_putBits]
    exact .startEncode s hs.1 hs.2
  · exact (writeHeader_frame _ _).mode.trans hs.1

theorem encodeNextBody (hblock : .encodeBlock ∈ A) :
    Performs (fun s => s.bc.mode = .write ∧ s.phase = .encBlocks) A es Machine.encodeNextBody
      fun _ s => s.bc.mode = .write := by
  refine .change hblock (fun s hs => ?_) fun s hs => ?_ <;> rw [State.endRun_eq]
  · exact .encodeBlock s hs.2 hs.1
  · exact (encodeBlock_frame _ _ _ _).mode.trans hs.1

theorem headerReadBody (hread : .read ∈ A) (hstart : .startDecode ∈ A)
    (hes : [.unexpectedEos, .badHeader, .badParam] ⊆ es) :
    Performs (fun s => s.bc.mode = .read) A es Machine.headerReadBody fun _ s => s.bc.mode = .read := by
  simp only [List.cons_subset, List.nil_subset, and_true] at hes
  obtain ⟨heos, hheader, hparam⟩ := hes
  have hfields : Reading es (structural readHeader) := Reading.readHeader.structural.mono (by simpa using heos)
  refine .bind (.onChannel (Q := fun _ s => s.bc.mode = .read) hread (fun b => (hfields.moves b).advances)
    hfields.raises (List.Subset.refl _) (fun _ hs => hs) fun _ _ _ _ hb _ => hb) fun h => ?_
  have hchecks : Reading es (Machine.validateHdr h) := (Reading.validateHdr h).mono (by simp [hheader, hparam])
  refine .bind (.onChannel (Q := fun _ s => s.bc.mode = .read ∧ h.Legal) hread
    (fun b => (hchecks.moves b).advances) hchecks.raises (List.Subset.refl _) (fun _ hs => hs)
    fun _ _ _ _ hb hok => ⟨hb, legal_of_validateHdr_ok hok⟩) fun _ => ?_
  exact .change hstart (fun s hs => .startDecode s h hs.1 hs.2) fun _ hs => hs.1

theorem decodeNextBody (hread : .read ∈ A) (hblock : .decodeBlock ∈ A)
    (hes : [.unexpectedEos, .badParam, .codeOverflow, .valueRange, .sampleRange] ⊆ es) :
    Performs (fun s => s.bc.mode = .read ∧ s.phase = .decBlocks) A es Machine.decodeNextBody
      fun _ s => s.bc.mode = .read := by
  refine .get fun s hs => ?_
  have hblocks : Reading es (structural (readBlock s.hdr (s.hdr.blockLen s.framesDone))) :=
    (Reading.readBlock _ _).structural.mono (by simpa using hes)
  refine .bind (.onChannel (Q := fun x t => t.bc.mode = .read ∧ t.phase = .decBlocks ∧
      x.1.length = t.hdr.blockLen t.framesDone ∧
      (t.hdr.stereo = true → x.2.length = t.hdr.blockLen t.framesDone)) hread
    (fun b => (hblocks.moves b).advances) hblocks.raises (List.Subset.refl _) (fun t ht => ht ▸ hs.1)
    fun t x b ht hb hok => ?_) fun x => ?_
  · subst ht
    exact ⟨hb, hs.2, readBlock_ok_length (structural_eq_ok hok)⟩
  · refine .change hblock (fun t ⟨_, hphase, h0, h1⟩ => ?_) fun t ht => ?_ <;> rw [State.endRun_eq]
    · exact .decodeBlock t x hphase h0 h1
    · exact ht.1

/-! ### Closing -/

/-- A writer's close: flush, durability draw, release (40_bitchannel.md R129). -/
theorem closeSink_write (hflush : .flush ∈ A) (hdraw : .draw ∈ A) (hclose : .closeWriter ∈ A)
    (he : .closeFailed ∈ es) :
    Performs (fun s => s.bc.mode = .write) A es (do
      closeSink
      Machine.change fun s => { s with bc := { s.bc with mode := .closed }, phase := .idle })
      fun _ _ => True := by
  have hrun : ∀ s : State, s.bc.mode = .write → Run A s { s.afterDraw with bc := s.bc.flush } := fun s hs =>
    (Run.single hflush (.flush s hs)).trans (Run.single hdraw (.draw { s with bc := s.bc.flush }))
  constructor
  · intro s a t hs hc
    cases hio : s.ioOk with
    | true =>
      cases (bind_of_ok (closeSink_writer hs hio)).symm.trans hc
      exact ⟨(hrun s hs).trans (Run.single hclose (.closeWriter _)), trivial⟩
    | false => cases (bind_of_error (closeSink_failed hs hio)).symm.trans hc
  · intro s e t hs hc
    cases hio : s.ioOk with
    | true => cases (bind_of_ok (closeSink_writer hs hio)).symm.trans hc
    | false =>
      cases (bind_of_error (closeSink_failed hs hio)).symm.trans hc
      exact ⟨hrun s hs, he⟩

/-- A reader's close: the release (40_bitchannel.md R129). -/
theorem closeSink_read (hclose : .closeReader ∈ A) :
    Performs (fun s => s.bc.mode = .read) A es (do
      closeSink
      Machine.change fun s => { s with bc := { s.bc with mode := .closed }, phase := .idle })
      fun _ _ => True := by
  constructor
  · intro s a t hs hc
    cases (bind_of_ok (closeSink_reader hs)).symm.trans hc
    exact ⟨.single hclose (.closeReader s), trivial⟩
  · intro s e t hs hc
    cases (bind_of_ok (closeSink_reader hs)).symm.trans hc

theorem closeBody {P : State → Prop} (hphase : .wrongPhase ∈ es) (hmode : .wrongBcMode ∈ es)
    (hsink : Performs (fun s => P s ∧ s.bc.mode ∈ [BcMode.write, .read]) A es (do
      closeSink
      Machine.change fun s => { s with bc := { s.bc with mode := .closed }, phase := .idle })
      fun _ _ => True) :
    Performs P A es Machine.closeBody fun _ _ => True :=
  .bind (.needPhase hphase _) fun _ => .bind (.needMode hmode _) fun _ =>
    hsink.pre fun _ ⟨⟨hs, _⟩, hm⟩ => ⟨hs, hm⟩

theorem or {α : Type} {P P' : State → Prop} {c : Cmd α} {Q : α → State → Prop} (h : Performs P A es c Q)
    (h' : Performs P' A es c Q) : Performs (fun s => P s ∨ P' s) A es c Q :=
  ⟨fun s a t hs hc => hs.elim (h.ok s a t · hc) (h'.ok s a t · hc),
    fun s e t hs hc => hs.elim (h.error s e t · hc) (h'.error s e t · hc)⟩

end Performs

/-! ### Every command -/

/-- The body of every command performs its changes. -/
theorem exec_performs (i : Instr) : ∃ body : Cmd Unit, (∀ s, exec i s = execute body s) ∧
    Performs (fun _ => True) (actsOf i) (raisable i) body fun _ _ => True := by
  have hbits : ∀ (n : Nat) (v : State → Nat) (s : State), ∃ bits, s.bc.writeBits (v s) n = s.bc.putBits bits :=
    fun n v s => ⟨_, writeBits_eq_putBits _ _ _⟩
  cases i <;> refine ⟨_, fun _ => rfl, ?_⟩
  case nop => exact .pure fun _ _ => trivial
  case softReset => exact .change (by decide) (fun s _ => .reset s) fun _ _ => trivial
  case bcOpenWrite =>
    exact .opening (by decide) (by decide) (.forget (.openWriteBody (by decide) (by decide) (by decide)))
  case bcOpenRead =>
    exact .opening (by decide) (by decide) (.forget (.openReadBody (by decide) (by decide) (by decide)))
  case bcWriteBits n =>
    exact .bind (.raiseIf (.head _) _) fun _ => (Performs.guarded (by simp [raisable]) (by simp [raisable])
      (.write (.head _) (hbits n _))).pre fun _ _ => trivial
  case bcWriteBit =>
    exact .guarded (by decide) (by decide) (.write (by decide) fun s => ⟨[s.writeBitValue], rfl⟩)
  case bcReadBits n =>
    exact .bind (.raiseIf (.head _) _) fun _ => (Performs.guarded (by simp [raisable]) (by simp [raisable])
      (.readThenWrite _ (by simp [actsOf]) (by simp [actsOf]) (readBits_advances n)
        (Reading.readBits_raises n) (by simp [raisable]))).pre fun _ _ => trivial
  case bcReadBit =>
    have hread : Reading [.endOfStream] readBit := .readBit (by decide)
    exact .guarded (by decide) (by decide) (.readThenWrite _ (by decide) (by decide)
      (fun b => (hread.moves b).advances) hread.raises (by decide))
  case bcClose =>
    refine .closeBody (by decide) (by decide) (Performs.pre (.or
      (.closeSink_write (by decide) (by decide) (by decide) (by decide)) (.closeSink_read (by decide)))
      fun s hs => by simpa using hs.2)
  case grConfig =>
    refine .get fun s _ => .bind (.raiseIf (by decide) _) fun _ => .bind (.raiseIf (by decide) _) fun _ =>
      .change (a := .construct) (by decide) (fun t ht => ?_) fun _ _ => trivial
    obtain ⟨⟨rfl, hm⟩, _⟩ := ht
    exact .construct t _ (not_le.mp hm)
  case grEncU =>
    exact .bind (.needCoder _ (by decide) (by decide) (by decide)) fun _ =>
      .write (by decide) fun s => ⟨_, encodeUnsigned_eq_putBits _ _ _⟩
  case grEncS =>
    exact .bind (.needCoder _ (by decide) (by decide) (by decide)) fun _ =>
      .write (by decide) fun s => ⟨_, encodeSigned_eq_putBits _ _ _ _⟩
  case grDecU =>
    have hread : ∀ m, Reading [.endOfStream, .codeOverflow] (decodeUnsigned m) := fun m =>
      .decodeUnsigned m (by decide) (by decide)
    exact .bind (.needCoder _ (by decide) (by decide) (by decide)) fun _ => .get fun s hs =>
      (Performs.readThenWrite _ (by decide) (by decide) (fun b => ((hread _).moves b).advances)
        (hread _).raises (by decide)).pre fun _ ht => ht ▸ hs
  case grDecS =>
    have hread : ∀ m scheme, Reading [.endOfStream, .codeOverflow, .valueRange] (decodeSigned m scheme) :=
      fun m scheme => .decodeSigned m scheme (by decide) (by decide) (by decide)
    exact .bind (.needCoder _ (by decide) (by decide) (by decide)) fun _ => .get fun s hs =>
      (Performs.readThenWrite _ (by decide) (by decide) (fun b => ((hread _ _).moves b).advances)
        (hread _ _).raises (by decide)).pre fun _ ht => ht ▸ hs
  case lpPredict n =>
    exact .bind (.raiseIf (.head _) _) fun _ =>
      .change (.head _) (fun s _ => .results s _ s.res1) fun _ _ => trivial
  case sdToMs => exact .change (by decide) (fun s _ => .results s _ _) fun _ _ => trivial
  case sdToLr => exact .change (by decide) (fun s _ => .results s _ _) fun _ _ => trivial
  case blkEstimate => exact .change (by decide) (fun s _ => .results s _ s.res1) fun _ _ => trivial
  case blkEncodeNext =>
    exact .guarded (by decide) (by decide) (.forget (.pre (.encodeNextBody (by decide)) fun _ => And.symm))
  case blkDecodeNext =>
    exact .guarded (by decide) (by decide)
      (.forget (.pre (.decodeNextBody (by decide) (by decide) (by decide)) fun _ => And.symm))
  case hdrWrite =>
    exact .guarded (by decide) (by decide)
      (.forget (.pre (.headerWriteBody (by decide) (by decide)) fun _ => And.right))
  case hdrRead =>
    exact .guarded (by decide) (by decide)
      (.forget (.pre (.headerReadBody (by decide) (by decide) (by decide)) fun _ => And.right))
  case encodeFile =>
    refine .opening (by decide) (by decide) <| .bind (.validateCfg (by decide)) fun _ =>
      .bind ((Performs.openWriteBody (by decide) (by decide) (by decide)).pre fun _ => And.left) fun _ =>
      .bind (.headerWriteBody (by decide) (by decide)) fun _ =>
      .bind (.allBlocks (.encodeNextBody (by decide))) fun _ => .closeBody (by decide) (by decide) ?_
    exact (Performs.closeSink_write (by decide) (by decide) (by decide) (by decide)).pre fun _ => And.left
  case decodeFile =>
    refine .opening (by decide) (by decide) <|
      .bind (.openReadBody (by decide) (by decide) (by decide)) fun _ =>
      .bind (.headerReadBody (by decide) (by decide) (by decide)) fun _ =>
      .bind (.allBlocks (.decodeNextBody (by decide) (by decide) (by decide))) fun _ =>
      .closeBody (by decide) (by decide) ?_
    exact (Performs.closeSink_read (by decide)).pre fun _ => And.left

/-- A command's end, from a state to which its changes have led (30_encoding.md R81). -/
theorem exec_runs {i : Instr} {s t : State} (hexec : exec i s = .next t) :
    ∃ u, Run (actsOf i) s u ∧ (t = u.succeed ∨ ∃ e ∈ raisable i, t = u.raiseError e) := by
  obtain ⟨body, hbody, hperforms⟩ := exec_performs i
  rw [hbody] at hexec
  rw [execute_next hexec]
  cases hrun : body s with
  | ok a u => exact ⟨u, (hperforms.ok s a u trivial hrun).1, .inl rfl⟩
  | error e u =>
    obtain ⟨hsu, he⟩ := hperforms.error s e u trivial hrun
    exact ⟨u, hsu, .inr ⟨e, he, rfl⟩⟩

end Sys2Proof.Machine
end

section
/-!
What every command keeps: the registers (10_state.md section 4 to 9), the output streams (20_memory.md
section 2), the errors it can raise (60_exceptions.md R307) and the phase (44_container.md R258).
-/

namespace Sys2Proof.Machine

open Sys2Proof.Claims

/-! ### What each change keeps -/

section Acts
variable {a : Act} {s t : State}

theorem Acts.host (h : Acts a s t) :
    (t.bc.byteIn, t.pcmIn, t.sched, t.seen) = (s.bc.byteIn, s.pcmIn, s.sched, s.seen) := by
  cases h
  case write bits _ => rw [(putBits_frame bits s.bc).byteIn]
  case read b _ hb => rw [hb.frame.byteIn]
  case flush => rw [(flush_frame s.bc).byteIn]
  case startEncode => exact congrArg (·, s.pcmIn, s.sched, s.seen) (putBits_frame s.cfg.bits s.bc).byteIn
  case encodeBlock => exact congrArg (·, s.pcmIn, s.sched, s.seen) (encodeBlock_frame _ _ _ s.bc).byteIn
  all_goals rfl

theorem Acts.operands (h : Acts a s t) (ha : a ∉ [Act.reset]) :
    (t.arg0, t.arg1, t.arg2) = (s.arg0, s.arg1, s.arg2) := by
  cases h
  case reset => exact absurd (by decide) ha
  all_goals rfl

theorem Acts.coder (h : Acts a s t) (ha : a ∉ [Act.reset, .construct]) :
    (t.grM, t.grNeg) = (s.grM, s.grNeg) := by
  cases h
  case reset | construct => exact absurd (by decide) ha
  all_goals rfl

theorem Acts.cfg (h : Acts a s t) (ha : a ∉ [Act.reset, .startDecode]) : t.cfg = s.cfg := by
  cases h
  case reset | startDecode => exact absurd (by decide) ha
  all_goals rfl

theorem Acts.hdr (h : Acts a s t) (ha : a ∉ [Act.reset, .startEncode, .startDecode]) :
    (t.hdr, t.hdrValid) = (s.hdr, s.hdrValid) := by
  cases h
  case reset | startEncode | startDecode => exact absurd (by decide) ha
  all_goals rfl

theorem Acts.progress (h : Acts a s t)
    (ha : a ∉ [Act.reset, .startEncode, .startDecode, .encodeBlock, .decodeBlock]) :
    (t.framesDone, t.hist0, t.hist1) = (s.framesDone, s.hist0, s.hist1) := by
  cases h
  case reset | startEncode | startDecode | encodeBlock | decodeBlock => exact absurd (by decide) ha
  all_goals rfl

theorem Acts.mode (h : Acts a s t)
    (ha : a ∉ [Act.reset, .openWriter, .openReader, .closeWriter, .closeReader]) :
    t.bc.mode = s.bc.mode := by
  cases h
  case reset | openWriter | openReader | closeWriter | closeReader => exact absurd (by decide) ha
  case write bits _ => exact (putBits_frame bits s.bc).mode
  case read b _ hb => exact hb.frame.mode
  case flush => exact (flush_frame s.bc).mode
  case startEncode => exact (putBits_frame s.cfg.bits s.bc).mode
  case encodeBlock => exact (encodeBlock_frame _ _ _ s.bc).mode
  all_goals rfl

theorem Acts.draws (h : Acts a s t) (ha : a ∉ [Act.draw]) :
    (t.ioAnswers, t.draws) = (s.ioAnswers, s.draws) := by
  cases h
  case draw => exact absurd (by decide) ha
  all_goals rfl

theorem Acts.phase (h : Acts a s t) (ha : a ∉ [Act.reset, .closeWriter, .closeReader, .startEncode,
    .startDecode, .encodeBlock, .decodeBlock]) : t.phase = s.phase := by
  cases h
  case reset | closeWriter | closeReader | startEncode | startDecode | encodeBlock | decodeBlock =>
    exact absurd (by decide) ha
  all_goals rfl

theorem Acts.pcmOut (h : Acts a s t) (ha : a ∉ [Act.startDecode, .decodeBlock]) : t.pcmOut = s.pcmOut := by
  cases h
  case startDecode | decodeBlock => exact absurd (by decide) ha
  all_goals rfl

theorem Acts.pcmOut_prefix (h : Acts a s t) (ha : a ∉ [Act.startDecode]) : s.pcmOut <+: t.pcmOut := by
  cases h
  case startDecode => exact absurd (by decide) ha
  case decodeBlock => exact List.prefix_append _ _
  all_goals exact List.prefix_refl _

theorem Acts.byteOut_prefix (h : Acts a s t) (ha : a ∉ [Act.openWriter]) : s.bc.byteOut <+: t.bc.byteOut := by
  cases h
  case openWriter => exact absurd (by decide) ha
  case write bits _ => exact (putBits_frame bits s.bc).byteOut
  case read b _ hb => exact hb.frame.byteOut ▸ List.prefix_refl _
  case flush => exact (flush_frame s.bc).byteOut
  case startEncode => exact (putBits_frame s.cfg.bits s.bc).byteOut
  case encodeBlock => exact (encodeBlock_frame _ _ _ s.bc).byteOut
  all_goals exact List.prefix_refl _

theorem Acts.durable (h : Acts a s t) (ha : a ∉ [Act.closeWriter]) (hs : s.bc.durable = false) :
    t.bc.durable = false := by
  cases h
  case closeWriter => exact absurd (by decide) ha
  case write bits _ => exact (putBits_frame bits s.bc).durable.trans hs
  case read b _ hb => exact hb.frame.durable.trans hs
  case flush => exact (flush_frame s.bc).durable.trans hs
  case startEncode => exact (putBits_frame s.cfg.bits s.bc).durable.trans hs
  case encodeBlock => exact (encodeBlock_frame _ _ _ s.bc).durable.trans hs
  case openWriter => rfl
  all_goals exact hs

end Acts

/-! ### What each command keeps -/

section Exec
variable {i : Instr} {s t : State}

/-- A relation that every change of the command has, and that composes, leads from its first state to its
last, when a command's end does not matter to it. -/
theorem exec_rel {R : State → State → Prop} {L : List Act} (hexec : exec i s = .next t)
    (hL : ∀ a ∈ actsOf i, a ∉ L) (refl : ∀ s, R s s) (trans : ∀ s t u, R s t → R t u → R s u)
    (hacts : ∀ {a s t}, Acts a s t → a ∉ L → R s t) (hok : ∀ u, R s u → R s u.succeed)
    (herror : ∀ e u, R s u → R s (u.raiseError e)) : R s t := by
  obtain ⟨u, hrun, rfl | ⟨e, -, rfl⟩⟩ := exec_runs hexec
  · exact hok u (hrun.rel refl trans fun a ha _ _ hact => hacts hact (hL a ha))
  · exact herror e u (hrun.rel refl trans fun a ha _ _ hact => hacts hact (hL a ha))

/-- A command keeps what each of its changes keeps. -/
theorem exec_keeps {γ : Type} {f : State → γ} {L : List Act} (hexec : exec i s = .next t)
    (hL : ∀ a ∈ actsOf i, a ∉ L) (hacts : ∀ {a s t}, Acts a s t → a ∉ L → f t = f s)
    (hok : ∀ u, f u.succeed = f u := by exact fun _ => rfl)
    (herror : ∀ e u, f (u.raiseError e) = f u := by exact fun _ _ => rfl) : f t = f s :=
  exec_rel (R := fun s t => f t = f s) hexec hL (fun _ => rfl) (fun _ _ _ h h' => h'.trans h)
    hacts (fun u h => (hok u).trans h) fun e u h => (herror e u).trans h

/-- Settles O16: a body raises only the errors of its row, and a success records none. -/
theorem commandsRaiseOnlyTheirErrors : Obligations.CommandsRaiseOnlyTheirErrors := by
  intro i s t e hnone hexec herror
  obtain ⟨u, -, rfl | ⟨e', he', rfl⟩⟩ := exec_runs hexec
  · obtain ⟨v, hv, -, -, ⟨-, hkept⟩ | ⟨hdone, -⟩⟩ := commandsEndInSuccessOrError.1 i s
    · cases hexec.symm.trans hv
      rw [herror, hnone, ite_self] at hkept
      cases hkept
    · cases hexec.symm.trans hv
      cases hdone
  · cases herror
    exact he'

/-- Settles O56: the changes of each command, and what each change keeps. -/
theorem commandsWriteOnlyTheirRegisters : Obligations.CommandsWriteOnlyTheirRegisters := by
  intro i s t hexec
  have hhost := exec_keeps (L := []) (f := fun s => (s.bc.byteIn, s.pcmIn, s.sched, s.seen)) hexec
    (fun _ _ => List.not_mem_nil) fun h _ => h.host
  simp only [Prod.mk.injEq] at hhost
  refine ⟨hhost, fun hi => ?_, fun hi => ?_, fun hi => ?_, fun hi => ?_, fun hi => ?_, fun hi => ?_,
    fun hi => ?_⟩
  · have hkept := exec_keeps (f := fun s => (s.arg0, s.arg1, s.arg2)) hexec
      (by cases i <;> simp_all [actsOf]) Acts.operands
    simpa only [Prod.mk.injEq] using hkept
  · have hkept := exec_keeps (f := fun s => (s.grM, s.grNeg)) hexec
      (by cases i <;> simp_all [actsOf]) Acts.coder
    simpa only [Prod.mk.injEq] using hkept
  · exact exec_keeps (f := State.cfg) hexec (by cases i <;> simp_all [actsOf]) Acts.cfg
  · have hkept := exec_keeps (f := fun s => (s.hdr, s.hdrValid)) hexec
      (by cases i <;> simp_all [actsOf]) Acts.hdr
    simpa only [Prod.mk.injEq] using hkept
  · have hkept := exec_keeps (f := fun s => (s.framesDone, s.hist0, s.hist1)) hexec
      (by cases i <;> simp_all [actsOf]) Acts.progress
    simpa only [Prod.mk.injEq] using hkept
  · exact exec_keeps (f := fun s => s.bc.mode) hexec (by cases i <;> simp_all [actsOf]) Acts.mode
  · have hkept := exec_keeps (f := fun s => (s.ioAnswers, s.draws)) hexec
      (by cases i <;> simp_all [actsOf]) Acts.draws
    simpa only [Prod.mk.injEq] using hkept

/-- Settles O57: only an opened writer empties BYTE_OUT, only a decode run PCM_OUT, and only a writer's
close makes the bytes durable. -/
theorem outputStreamsOnlyGrow : Obligations.OutputStreamsOnlyGrow := by
  intro i s t hexec
  refine ⟨fun hi => ?_, fun hi => ?_, fun hi => ?_, fun hs ht => ?_⟩
  · exact exec_rel (R := fun s t => s.bc.byteOut <+: t.bc.byteOut) hexec
      (by cases i <;> simp_all [actsOf]) (fun _ => List.prefix_refl _) (fun _ _ _ => List.IsPrefix.trans)
      Acts.byteOut_prefix (fun _ h => h) fun _ _ h => h
  · exact exec_rel (R := fun s t => s.pcmOut <+: t.pcmOut) hexec
      (by cases i <;> simp_all [actsOf]) (fun _ => List.prefix_refl _) (fun _ _ _ => List.IsPrefix.trans)
      Acts.pcmOut_prefix (fun _ h => h) fun _ _ h => h
  · exact exec_keeps (f := State.pcmOut) hexec (by cases i <;> simp_all [actsOf]) Acts.pcmOut
  · by_contra hi
    have hkept := exec_rel (R := fun s t => s.bc.durable = false → t.bc.durable = false) hexec
      (by cases i <;> simp_all [actsOf]) (fun _ h => h) (fun _ _ _ h h' => h' ∘ h)
      Acts.durable (fun _ h => h) fun _ _ h => h
    cases ht.symm.trans (hkept hs)

end Exec

/-! ### The phase -/

section Phase
variable {body : Cmd Unit} {s t : State}

/-- A body that only moves the reader when it raises keeps the phase then. -/
theorem phase_or_ok (hraises : RaisesMoved body) (hexec : execute body s = .next t) :
    t.phase = s.phase ∨ ∃ u, body s = .ok () u ∧ t = u.succeed := by
  rw [execute_next hexec]
  cases hrun : body s with
  | ok a u => exact .inr ⟨u, rfl, rfl⟩
  | error e u =>
    obtain ⟨b, -, rfl⟩ := hraises s e u hrun
    exact .inl rfl

/-- A command whose guards have passed. -/
theorem guarded_ok {ps : List Phase} {ms : List BcMode} {u : State}
    (hrun : (do needPhase ps; needMode ms; body) s = .ok () u) : s.phase ∈ ps ∧ body s = .ok () u := by
  by_cases hphase : s.phase ∈ ps
  · rw [bind_of_ok (needPhase_ok hphase)] at hrun
    by_cases hmode : s.bc.mode ∈ ms
    · exact ⟨hphase, (bind_of_ok (needMode_ok hmode)).symm.trans hrun⟩
    · cases (bind_of_error (needMode_error hmode)).symm.trans hrun
  · cases (bind_of_error (needPhase_error hphase)).symm.trans hrun

theorem guarded_phase {p : Phase} {m : BcMode} (hraises : RaisesMoved body)
    (hexec : execute (do needPhase [p]; needMode [m]; body) s = .next t) (hne : t.phase ≠ s.phase) :
    s.phase = p ∧ ∃ u, body s = .ok () u ∧ t = u.succeed := by
  obtain hsame | ⟨u, hrun, rfl⟩ := phase_or_ok (hraises.guarded [p] [m]) hexec
  · exact absurd hsame hne
  · obtain ⟨hphase, hbody⟩ := guarded_ok hrun
    exact ⟨List.mem_singleton.mp hphase, u, hbody, rfl⟩

theorem RaisesMoved.headerWriteBody : RaisesMoved Machine.headerWriteBody :=
  .bind_change (.of_relates fun s => by
    rw [show endState (Machine.validateCfg s) = s from Keeps.validateCfg (fun s => s) s]
    exact .refl s) _

theorem RaisesMoved.encodeNextBody : RaisesMoved Machine.encodeNextBody := by
  intro s e t hc
  cases hc

/-- What HDR_WRITE makes of the phase (44_container.md R252). -/
theorem hdrWrite_phase (hexec : exec .hdrWrite s = .next t) (hne : t.phase ≠ s.phase) :
    s.phase = .idle ∧ t.phase = if s.cfg.totalFrames = 0 then .encEnd else .encBlocks := by
  obtain ⟨hphase, u, hrun, rfl⟩ := guarded_phase .headerWriteBody hexec hne
  obtain ⟨_, v, hchecks, hrun⟩ := ok_of_bind hrun
  cases hrun
  have hv : v = s := (Keeps.validateCfg fun s => s).of_ok hchecks
  exact ⟨hphase, by rw [hv]; rfl⟩

/-- What HDR_READ makes of the phase (44_container.md R255). -/
theorem hdrRead_phase (hexec : exec .hdrRead s = .next t) (hne : t.phase ≠ s.phase) :
    s.phase = .idle ∧ t.phase = if t.hdr.totalFrames = 0 then .decEnd else .decBlocks := by
  obtain ⟨hphase, u, hrun, rfl⟩ := guarded_phase .headerReadBody hexec hne
  obtain ⟨h, _, _, hrun⟩ := ok_of_bind hrun
  obtain ⟨_, _, _, hrun⟩ := ok_of_bind hrun
  cases hrun
  exact ⟨hphase, rfl⟩

/-- A block ends the run when every frame is done (43_block_codec.md R219, R234). -/
theorem endRun_phase {p : Phase} (hne : (s.endRun p).phase ≠ s.phase) :
    (s.endRun p).phase = p ∧ (s.endRun p).framesDone = (s.endRun p).hdr.totalFrames.toNat := by
  rcases endRun_cases p s with ⟨hend, h⟩ | ⟨_, h⟩ <;> rw [h] at hne ⊢
  · exact ⟨rfl, hend⟩
  · exact absurd rfl hne

theorem blkEncodeNext_phase (hexec : exec .blkEncodeNext s = .next t) (hne : t.phase ≠ s.phase) :
    s.phase = .encBlocks ∧ t.phase = .encEnd ∧ t.framesDone = t.hdr.totalFrames.toNat := by
  obtain ⟨hphase, u, hrun, rfl⟩ := guarded_phase .encodeNextBody hexec hne
  cases hrun
  exact ⟨hphase, endRun_phase (s := s.encodeBlock) hne⟩

theorem blkDecodeNext_phase (hexec : exec .blkDecodeNext s = .next t) (hne : t.phase ≠ s.phase) :
    s.phase = .decBlocks ∧ t.phase = .decEnd ∧ t.framesDone = t.hdr.totalFrames.toNat := by
  obtain ⟨hphase, u, hrun, rfl⟩ := guarded_phase .decodeNextBody hexec hne
  rw [decodeNextBody, bind_of_ok (get_apply s)] at hrun
  obtain ⟨x, v, hread, hrun⟩ := ok_of_bind hrun
  cases hrun
  have hv : v.phase = s.phase := (Keeps.onChannel (fun _ _ => rfl) _).of_ok hread
  exact ⟨hphase, endRun_phase (s := v.appendBlock x) (hv.symm ▸ hne)⟩

/-- The body leaves phase IDLE when it succeeds. -/
def EndsIdle (c : Cmd Unit) : Prop := ∀ s u, c s = .ok () u → u.phase = .idle

theorem EndsIdle.bind {α : Type} {x : Cmd α} {k : α → Cmd Unit} (hk : ∀ a, EndsIdle (k a)) :
    EndsIdle (x >>= k) := by
  intro s u hrun
  obtain ⟨a, v, _, hrun⟩ := ok_of_bind hrun
  exact hk a v u hrun

/-- A close ends in phase IDLE (40_bitchannel.md R129). -/
theorem EndsIdle.closeBody : EndsIdle Machine.closeBody :=
  .bind fun _ => .bind fun _ => .bind fun _ s u hrun => by
    cases hrun
    rfl

/-- A close that raises keeps the phase (40_bitchannel.md R129). -/
theorem closeBody_error_phase {e : Raise} {u : State} (hrun : closeBody s = .error e u) :
    u.phase = s.phase := by
  have hkeeps : Keeps State.phase (do
      needPhase [.idle, .encEnd, .decEnd]
      needMode [.write, .read]
      closeSink) :=
    .guarded _ _ (.closeSink (fun _ _ => rfl) fun _ => rfl)
  have hclose : closeBody = (do
      (do needPhase [.idle, .encEnd, .decEnd]; needMode [.write, .read]; closeSink)
      change fun s => { s with bc := { s.bc with mode := .closed }, phase := .idle }) := by
    simp only [closeBody, bind_assoc]
  rw [hclose] at hrun
  cases hsink : (do needPhase [.idle, .encEnd, .decEnd]; needMode [.write, .read]; closeSink : Cmd Unit) s with
  | ok a v => cases (bind_of_ok hsink).symm.trans hrun
  | error e' v =>
    cases (bind_of_error hsink).symm.trans hrun
    exact hkeeps.of_error hsink

theorem bcClose_phase (hexec : exec .bcClose s = .next t) (hne : t.phase ≠ s.phase) :
    (s.phase = .encEnd ∨ s.phase = .decEnd) ∧ t.phase = .idle := by
  rw [execute_next hexec] at hne ⊢
  cases hrun : closeBody s with
  | ok a u =>
    have hidle : u.phase = .idle := EndsIdle.closeBody s u hrun
    obtain ⟨hphase, -⟩ := guarded_ok hrun
    have hnot : s.phase ≠ .idle := fun h => hne (by rw [hrun, h]; exact hidle)
    exact ⟨by simpa [hnot] using hphase, hidle⟩
  | error e u =>
    rw [hrun] at hne
    exact absurd (closeBody_error_phase hrun) hne

/-- Both file commands end with a close (44_container.md R256, R257). -/
theorem file_ends_idle {i : Instr} (hi : i = .encodeFile ∨ i = .decodeFile) (hexec : exec i s = .next t)
    (hdone : t.done = true) : t.phase = .idle := by
  have hends : ∃ body, EndsIdle body ∧ exec i s = execute body s := by
    rcases hi with rfl | rfl
    · exact ⟨_, .bind fun _ => .bind fun _ => .bind fun _ => .bind fun _ => .bind fun _ => .bind fun _ =>
        .closeBody, rfl⟩
    · exact ⟨_, .bind fun _ => .bind fun _ => .bind fun _ => .bind fun _ => .bind fun _ => .closeBody, rfl⟩
  obtain ⟨body, hidle, hbody⟩ := hends
  rw [hbody] at hexec
  rw [execute_next hexec] at hdone ⊢
  cases hrun : body s with
  | ok a u => exact hidle s u hrun
  | error e u =>
    rw [hrun] at hdone
    cases hdone

end Phase

/-- Settles O19: seven commands have a change that writes the phase, and each writes it as its row says. -/
theorem phaseChangesOnlyByItsTable : Obligations.PhaseChangesOnlyByItsTable := by
  refine ⟨fun i s t hencode hdecode hexec hne => ?_,
    fun i s t hi hexec hdone => ⟨?_, file_ends_idle hi hexec hdone⟩⟩
  · cases i
    case encodeFile => exact absurd rfl hencode
    case decodeFile => exact absurd rfl hdecode
    case hdrWrite => exact .inl ⟨rfl, hdrWrite_phase hexec hne⟩
    case hdrRead => exact .inr (.inl ⟨rfl, hdrRead_phase hexec hne⟩)
    case blkEncodeNext => exact .inr (.inr (.inl ⟨rfl, blkEncodeNext_phase hexec hne⟩))
    case blkDecodeNext => exact .inr (.inr (.inr (.inl ⟨rfl, blkDecodeNext_phase hexec hne⟩)))
    case bcClose => exact .inr (.inr (.inr (.inr (.inl ⟨rfl, bcClose_phase hexec hne⟩))))
    case softReset =>
      cases (exec_softReset s).symm.trans hexec
      exact .inr (.inr (.inr (.inr (.inr ⟨rfl, rfl⟩))))
    all_goals exact absurd (exec_keeps (f := State.phase) hexec (by simp [actsOf]) Acts.phase) hne
  · by_contra hphase
    have hlegal : legalPhases i = [.idle] ∧ rangeOk i = true := by
      rcases hi with rfl | rfl <;> exact ⟨rfl, rfl⟩
    have hraised := guardsRaiseInOrder.2.1 i s hlegal.2 (by simpa [hlegal.1] using hphase)
    cases hraised.symm.trans hexec
    cases hdone

end Sys2Proof.Machine
end

section
/-!
The invariant of the machine (10_state.md, 44_container.md R258): each change keeps the BitChannel and the
run consistent, and each turn the handshake.
-/

namespace Sys2Proof.Machine

open Sys2Proof.Claims

/-! ### The BitChannel -/

section Channel
variable {b : BitChannel}

theorem inv_of_writer (hmode : b.mode = .write) (hcount : b.Counted) (hclean : PendingClean b)
    (hdurable : b.durable = false) : b.Inv :=
  ⟨fun _ => hcount, by simp [hmode], by simp [hmode], hclean, fun _ => hdurable⟩

theorem inv_of_reader (hmode : b.mode = .read) (hcount : b.Synced)
    (hinside : b.rdpos ≤ 8 * b.byteIn.length) (hclean : PendingClean b) : b.Inv :=
  ⟨by simp [hmode], fun _ => hcount, fun _ => hinside, hclean, by simp [hmode]⟩

theorem inv_of_closed (hmode : b.mode = .closed) (hclean : PendingClean b) : b.Inv :=
  ⟨by simp [hmode], by simp [hmode], by simp [hmode], hclean, by simp [hmode]⟩

/-- Writing bits keeps an open writer consistent (10_state.md R32, 40_bitchannel.md R128). -/
theorem putBits_inv (bits : List Bool) (hmode : b.mode = .write) (h : b.Inv) : (b.putBits bits).Inv := by
  obtain ⟨hcount, -, -, hclean, hdurable⟩ := h
  have hframe := putBits_frame bits b
  exact inv_of_writer (hframe.mode.trans hmode) (putBits_counted bits (hcount hmode))
    (putBits_pendingClean bits hclean) (hframe.durable.trans (hdurable hmode))

theorem flush_pendingClean (hclean : PendingClean b) : PendingClean b.flush := by
  obtain ⟨-, hpend⟩ := flush_pending hclean
  rw [PendingClean, hpend]
  exact Nat.zero_mod _

theorem flush_inv (hmode : b.mode = .write) (h : b.Inv) : b.flush.Inv := by
  obtain ⟨hcount, -, -, hclean, hdurable⟩ := h
  have hframe := flush_frame b
  exact inv_of_writer (hframe.mode.trans hmode) (flush_counted (hcount hmode)) (flush_pendingClean hclean)
    (hframe.durable.trans (hdurable hmode))

/-- Reading keeps an open reader consistent (40_bitchannel.md R127, R134). -/
theorem Advances.inv {c : BitChannel} (hb : Advances b c) (hmode : b.mode = .read) (h : b.Inv) : c.Inv := by
  obtain ⟨-, hcount, hinside, hclean, -⟩ := h
  refine inv_of_reader (hb.frame.mode.trans hmode) (hb.synced (hcount hmode)) (hb.inside (hinside hmode)) ?_
  rwa [PendingClean, hb.frame.wpend, hb.frame.wpos]

end Channel

theorem BitChannel.newReader_synced (b : BitChannel) : b.newReader.Synced := by
  simp [BitChannel.Synced, BitChannel.newReader]

theorem Acts.bc_inv {a : Act} {s t : State} (hact : Acts a s t) (h : s.bc.Inv) : t.bc.Inv := by
  obtain ⟨-, -, -, hclean, -⟩ := id h
  cases hact
  case write bits hmode => exact putBits_inv bits hmode h
  case startEncode hmode _ => exact putBits_inv _ hmode h
  case encodeBlock _ hmode =>
    have hbits := putBits_inv (s.hdr.encodedBlockBits s.pcmIn s.framesDone) hmode h
    rwa [← State.encodeBlock_bc] at hbits
  case flush hmode => exact flush_inv hmode h
  case read b hmode hb => exact hb.inv hmode h
  case openWriter => exact inv_of_writer rfl rfl s.bc.newWriter_pendingClean rfl
  case openReader => exact inv_of_reader rfl s.bc.newReader_synced (Nat.zero_le _) hclean
  case closeWriter | closeReader => exact inv_of_closed rfl hclean
  case reset => exact ⟨nofun, nofun, nofun, Nat.zero_mod _, nofun⟩
  all_goals exact h

/-! ### The run -/

section RunInv
variable {s : State}

theorem runInv_of_idle (hphase : s.phase = .idle) (hle : s.framesDone ≤ s.hdr.totalFrames.toNat)
    (hhist : s.hist0.length = s.framesDone) : s.RunInv := by
  refine ⟨?_, ?_, hle, ?_, ?_, hhist⟩ <;> simp [hphase, Phase.encoding, Phase.decoding]

/-- The phase of a run says whether frames are left (44_container.md R258). -/
theorem State.InRun.frames {p q : Phase} (h : s.InRun p q) :
    s.phase = p ∧ s.framesDone < s.hdr.totalFrames.toNat ∨
      s.phase = q ∧ s.framesDone = s.hdr.totalFrames.toNat := by
  obtain ⟨hle, hphase⟩ := h
  by_cases hend : s.framesDone = s.hdr.totalFrames.toNat
  · exact .inr ⟨by rw [hphase, if_pos hend], hend⟩
  · exact .inl ⟨by rw [hphase, if_neg hend], by omega⟩

/-- An encode run is consistent (44_container.md R250, R252). -/
theorem runInv_of_encoding (hrun : s.InRun .encBlocks .encEnd) (hhist : s.hist0.length = s.framesDone)
    (hmode : s.bc.mode = .write) (hvalid : s.hdrValid = true) (hlegal : s.hdr.Legal)
    (hpcm : s.pcmIn.length = s.hdr.channels.toNat * s.hdr.totalFrames.toNat) : s.RunInv := by
  have hencode : s.phase.encoding = true → s.bc.mode = .write ∧ s.hdrValid = true ∧ s.hdr.Legal ∧
      s.pcmIn.length = s.hdr.channels.toNat * s.hdr.totalFrames.toNat :=
    fun _ => ⟨hmode, hvalid, hlegal, hpcm⟩
  rcases hrun.frames with ⟨hphase, hframes⟩ | ⟨hphase, hframes⟩
  · exact ⟨hencode, by simp [hphase, Phase.decoding], hrun.1, fun _ => hframes, by simp [hphase], hhist⟩
  · exact ⟨hencode, by simp [hphase, Phase.decoding], hrun.1, by simp [hphase], fun _ => hframes, hhist⟩

/-- A decode run is consistent (44_container.md R254, R255, 43_block_codec.md R238). -/
theorem runInv_of_decoding (hrun : s.InRun .decBlocks .decEnd) (hhist : s.hist0.length = s.framesDone)
    (hmode : s.bc.mode = .read) (hvalid : s.hdrValid = true) (hlegal : s.hdr.Legal)
    (hpcm : s.pcmOut.length = s.hdr.channels.toNat * s.framesDone) : s.RunInv := by
  have hdecode : s.phase.decoding = true → s.bc.mode = .read ∧ s.hdrValid = true ∧ s.hdr.Legal ∧
      s.pcmOut.length = s.hdr.channels.toNat * s.framesDone :=
    fun _ => ⟨hmode, hvalid, hlegal, hpcm⟩
  rcases hrun.frames with ⟨hphase, hframes⟩ | ⟨hphase, hframes⟩
  · exact ⟨by simp [hphase, Phase.encoding], hdecode, hrun.1, fun _ => hframes, by simp [hphase], hhist⟩
  · exact ⟨by simp [hphase, Phase.encoding], hdecode, hrun.1, by simp [hphase], fun _ => hframes, hhist⟩

/-- A block puts out its frames, with a sample for each channel (43_block_codec.md R238). -/
theorem outputSamples_length {h : Header} {x0 x1 : List Int} {len : Nat} (h0 : x0.length = len)
    (h1 : h.stereo = true → x1.length = len) : (h.outputSamples x0 x1).length = h.channelCount * len := by
  cases hs : h.stereo with
  | false => simp [Header.outputSamples, Header.channelCount, hs, h0]
  | true =>
    simp only [Header.outputSamples, Header.channelCount, hs, if_true, List.length_flatMap, List.length_cons,
      List.length_nil, List.map_const', List.sum_replicate, List.length_zipWith, h0, h1 hs, min_self,
      smul_eq_mul, Nat.mul_comm]

theorem Acts.runInv {a : Act} {t : State} (hact : Acts a s t) (h : s.RunInv) : t.RunInv := by
  obtain ⟨hencode, hdecode, hle, hmore, hend, hhist⟩ := id h
  cases hact
  case write bits hmode =>
    exact ⟨fun hp => ⟨(putBits_frame bits s.bc).mode.trans hmode, (hencode hp).2⟩,
      fun hp => absurd (hmode.symm.trans (hdecode hp).1) (by decide), hle, hmore, hend, hhist⟩
  case flush hmode =>
    exact ⟨fun hp => ⟨(flush_frame s.bc).mode.trans hmode, (hencode hp).2⟩,
      fun hp => absurd (hmode.symm.trans (hdecode hp).1) (by decide), hle, hmore, hend, hhist⟩
  case read b hmode hb =>
    exact ⟨fun hp => absurd (hmode.symm.trans (hencode hp).1) (by decide),
      fun hp => ⟨hb.frame.mode.trans hmode, (hdecode hp).2⟩, hle, hmore, hend, hhist⟩
  case openWriter hphase | openReader hphase => exact runInv_of_idle hphase hle hhist
  case closeWriter | closeReader => exact runInv_of_idle rfl hle hhist
  case reset => exact runInv_of_idle rfl (Nat.zero_le _) rfl
  case startEncode hmode hok =>
    exact runInv_of_encoding (s.startRun_inRun s.cfg .encBlocks .encEnd) rfl
      ((putBits_frame _ _).mode.trans hmode) rfl hok.1 hok.2
  case startDecode h hlegal hmode =>
    exact runInv_of_decoding (s.startRun_inRun h .decBlocks .decEnd) rfl hmode rfl hlegal rfl
  case encodeBlock hphase hmode =>
    obtain ⟨-, hvalid, hlegal, hpcm⟩ := hencode (by rw [hphase]; rfl)
    have hblock := blockLen_le s.hdr s.framesDone
    refine runInv_of_encoding ⟨?_, ?_⟩ ?_ ((encodeBlock_frame _ _ _ _).mode.trans hmode) hvalid hlegal hpcm
    · simp only [State.encodeBlock]
      omega
    · simp only [hphase]
      rfl
    · simp [State.encodeBlock, hhist]
  case decodeBlock x hphase h0 h1 =>
    obtain ⟨hmode, hvalid, hlegal, hpcm⟩ := hdecode (by rw [hphase]; rfl)
    have hblock := blockLen_le s.hdr s.framesDone
    refine runInv_of_decoding ⟨?_, ?_⟩ ?_ hmode hvalid hlegal ?_
    · simp only [State.appendBlock]
      omega
    · simp only [hphase]
      rfl
    · simp [State.appendBlock, hhist, h0]
    · simp [State.appendBlock, hpcm, outputSamples_length h0 h1, channelCount_eq hlegal, Nat.mul_add]
  all_goals exact h

end RunInv

/-! ### Commands -/

/-- What of the invariant the changes keep: all but the handshake. -/
def State.BodyInv (s : State) : Prop := s.bc.Inv ∧ s.RunInv ∧ (s.grM = 0 ∨ 0 < int32 s.grM)

theorem Acts.coder_inv {a : Act} {s t : State} (hact : Acts a s t) (h : s.grM = 0 ∨ 0 < int32 s.grM) :
    t.grM = 0 ∨ 0 < int32 t.grM := by
  cases hact
  case construct hm => exact .inr hm
  case reset => exact .inl rfl
  all_goals exact h

theorem Run.bodyInv {A : List Act} {s t : State} (hrun : Run A s t) (h : s.BodyInv) : t.BodyInv :=
  hrun.rel (R := fun s t => s.BodyInv → t.BodyInv) (fun _ h => h) (fun _ _ _ h h' => h' ∘ h)
    (fun _ _ _ _ hact ⟨hbc, hrun, hm⟩ => ⟨hact.bc_inv hbc, hact.runInv hrun, hact.coder_inv hm⟩) h

theorem State.Inv.bodyInv {s : State} (h : s.Inv) : s.BodyInv := by
  obtain ⟨hbc, hrun, -, -, hm⟩ := h
  exact ⟨hbc, hrun, hm⟩

/-- A state between two commands with no error recorded. -/
theorem inv_of_ready {s : State} (h : s.BodyInv) (hcur : s.cur = none) (herror : s.error = none) : s.Inv := by
  obtain ⟨hbc, hrun, hm⟩ := h
  exact ⟨hbc, hrun, by simp [hcur], by simp [herror], hm⟩

/-- Error entry leaves a consistent handshake (60_exceptions.md R313). -/
theorem raiseError_inv {s : State} (h : s.BodyInv) (e : Raise) : (s.raiseError e).Inv := by
  obtain ⟨hbc, hrun, hm⟩ := h
  exact ⟨hbc, hrun, nofun, fun _ => ⟨rfl, .inl rfl⟩, hm⟩

/-- A command in flight with an error recorded is SOFT_RESET (30_encoding.md R80). -/
theorem exec_inv {i : Instr} {s t : State} {v : Word} (h : s.Inv) (hcur : s.cur = some v)
    (hdecode : decode v = .ok i) (hexec : exec i s = .next t) : t.Inv := by
  obtain ⟨u, hrun, rfl | ⟨e, -, rfl⟩⟩ := exec_runs hexec
  · have hbody : u.succeed.BodyInv := hrun.bodyInv h.bodyInv
    refine inv_of_ready hbody rfl ?_
    obtain ⟨w, hw, -, -, ⟨-, herror⟩ | ⟨hdone, -⟩⟩ := commandsEndInSuccessOrError.1 i s
    · cases hexec.symm.trans hw
      by_cases hreset : i = .softReset
      · rw [herror, if_pos hreset]
      · rw [herror, if_neg hreset]
        obtain ⟨-, -, -, herr, -⟩ := h
        by_contra hne
        obtain ⟨-, hnone | hone⟩ := herr (Option.isSome_iff_ne_none.mpr hne)
        · cases hcur.symm.trans hnone
        · cases hcur.symm.trans hone
          exact hreset (by injection hdecode.symm.trans (show decode 1#32 = .ok .softReset by decide))
    · cases hexec.symm.trans hw
      cases hdone
  · exact raiseError_inv (hrun.bodyInv h.bodyInv) e

theorem coreTurn_inv {s t : State} (h : s.Inv) (hturn : coreTurn s = .next t) : t.Inv := by
  rcases coreTurn_cases s with ⟨_, hidle⟩ | ⟨v, i, hcur, hd, hexec⟩ | ⟨v, d, _, _, hreject⟩
  · cases hidle.symm.trans hturn
    exact h
  · exact exec_inv h hcur hd (hexec.symm.trans hturn)
  · cases hreject.symm.trans hturn
    exact raiseError_inv h.bodyInv _

/-! ### Host moves -/

section Host
variable {s t : State}

/-- A write of CMD issues a word that the handshake allows (30_encoding.md R80). -/
theorem writeCmd_inv (v : Word) (h : s.Inv) : (s.writeCmd v).Inv := by
  obtain ⟨hbc, hrun, hdone, herror, hm⟩ := id h
  rcases writeCmd_cases v s with ⟨-, -, hsame⟩ | ⟨hallowed, hissue⟩
  · rwa [hsame]
  · rw [hissue]
    refine ⟨hbc, hrun, fun _ => rfl, fun herr => ⟨rfl, .inr ?_⟩, hm⟩
    rcases hallowed with hnone | rfl
    · cases hnone.symm.trans herr
    · rfl

theorem writeReg_inv (v : Word) (r : Reg) (h : s.Inv) : (s.writeReg v r).Inv := by
  cases r
  case cmd => exact writeCmd_inv v h
  all_goals exact h

theorem hardReset_inv (s : State) : s.hardReset.Inv :=
  inv_of_ready ⟨⟨nofun, nofun, nofun, Nat.zero_mod _, nofun⟩, runInv_of_idle rfl (Nat.zero_le _) rfl,
    .inl rfl⟩ rfl rfl

/-- No move of the host breaks the invariant (70_reset_and_hazards.md R353). -/
theorem hostMove_inv {e : HostEvent} (h : s.Inv) (hmove : hostMove e s = .next t) : t.Inv := by
  obtain ⟨⟨hwrite, hread, hinside, hclean, hdurable⟩, ⟨hencode, hdecode, hframes⟩, hshake⟩ := id h
  cases e with
  | write off size v =>
    simp only [hostMove] at hmove
    split at hmove
    · cases hmove
    · split at hmove <;> cases hmove
      exact writeReg_inv v _ h
  | read off size =>
    simp only [hostMove] at hmove
    split at hmove <;> cases hmove
    unfold State.hostRead
    split <;> exact h
  | takeBytes =>
    cases hmove
    unfold State.hostTakeBytes
    split <;> exact h
  | takeSamples =>
    cases hmove
    unfold State.hostTakeSamples
    split <;> exact h
  | supplyBytes bs =>
    simp only [hostMove] at hmove
    split at hmove <;> cases hmove
    next hfree =>
      have hmode : s.bc.mode ≠ .read := fun hm => hfree (by simp [State.byteInFixed, hm])
      exact ⟨⟨hwrite, hread, fun hm => absurd hm hmode, hclean, hdurable⟩, ⟨hencode, hdecode, hframes⟩, hshake⟩
  | supplySamples xs =>
    simp only [hostMove] at hmove
    split at hmove <;> cases hmove
    next hfree =>
      have hphase : s.phase.encoding = false := by
        simp only [State.pcmInFixed, Bool.or_eq_true, not_or, Bool.not_eq_true] at hfree
        simp [Phase.encoding, hfree]
      exact ⟨⟨hwrite, hread, hinside, hclean, hdurable⟩,
        ⟨fun hp => absurd hp (by simp [hphase]), hdecode, hframes⟩, hshake⟩
  | hardReset =>
    cases hmove
    exact hardReset_inv s

end Host

/-- Settles O55: the turn is taken off the list, and each agent's turn keeps the invariant. -/
theorem stepKeepsTheInvariant : Obligations.StepKeepsTheInvariant := by
  intro s t h hstep
  have hnext : s.nextTurn.2.Inv := by
    rw [nextTurn_eq]
    exact h
  rcases hturn : s.nextTurn with ⟨a, u⟩
  rw [hturn] at hnext
  cases a with
  | core => exact coreTurn_inv hnext ((step_eq_coreTurn hturn).symm.trans hstep)
  | host e => exact hostMove_inv hnext ((step_eq_hostMove hturn).symm.trans hstep)

end Sys2Proof.Machine
end
